-- ==== Sys2Proof/Word.lean ====
section
/-! DEFINITION. The word types of the core (spec/00_scope.md R7, R8): bit 0 is the least significant bit. -/

namespace Sys2Proof

/-- A 32-bit register, address or ARM instruction word. -/
abbrev Word := BitVec 32

/-- A 16-bit halfword; a Thumb instruction is one. -/
abbrev Half := BitVec 16

/-- The smallest addressable unit of memory. -/
abbrev Byte := BitVec 8

/-- A 4-bit register field, r0 to r15. -/
abbrev RegNum := BitVec 4

/-- A 3-bit Thumb register field, r0 to r7. -/
abbrev LoReg := BitVec 3

end Sys2Proof
end

