-- ==== Sys2Proof/Syntax.lean ====
section
/-! DEFINITION. The syntax of the ARM and Thumb instruction sets (spec/30_encoding.md): one structure of operand fields per
encoding format and one constructor of `Instr` per row of spec/opcode_table.json, in the table's order. A field holds the
bits of the encoding's field of that name; a format's fixed bits are in Decode.lean only. -/

namespace Sys2Proof

/-- The condition field of an ARM instruction (R101, spec/41_shifter_alu_flags.md R220). The value 1111 is no condition:
a word that carries it is refused (R128). -/
inductive Cond where
  | eq | ne | cs | cc | mi | pl | vs | vc | hi | ls | ge | lt | gt | le | al
deriving DecidableEq, Repr

/-- The shift type field (R106). -/
inductive ShiftType where
  | lsl | lsr | asr | ror
deriving DecidableEq, Repr

/-- Format A1, data processing, immediate operand (R105). -/
structure A1 where
  cond : Cond
  s : Bool
  rn : RegNum
  rd : RegNum
  rot : BitVec 4
  imm8 : BitVec 8
deriving DecidableEq, Repr

/-- Format A1 of TST, TEQ, CMP, CMN: S is 1 and Rd 0000 (R105). -/
structure A1Cmp where
  cond : Cond
  rn : RegNum
  rot : BitVec 4
  imm8 : BitVec 8
deriving DecidableEq, Repr

/-- Format A1 of MOV, MVN: Rn is 0000 (R105). -/
structure A1Mov where
  cond : Cond
  s : Bool
  rd : RegNum
  rot : BitVec 4
  imm8 : BitVec 8
deriving DecidableEq, Repr

/-- Format A2, data processing, register shifted by an immediate (R106). -/
structure A2 where
  cond : Cond
  s : Bool
  rn : RegNum
  rd : RegNum
  shiftImm : BitVec 5
  shift : ShiftType
  rm : RegNum
deriving DecidableEq, Repr

/-- Format A2 of the compares (R106). -/
structure A2Cmp where
  cond : Cond
  rn : RegNum
  shiftImm : BitVec 5
  shift : ShiftType
  rm : RegNum
deriving DecidableEq, Repr

/-- Format A2 of MOV, MVN (R106). -/
structure A2Mov where
  cond : Cond
  s : Bool
  rd : RegNum
  shiftImm : BitVec 5
  shift : ShiftType
  rm : RegNum
deriving DecidableEq, Repr

/-- Format A3, data processing, register shifted by a register (R107). -/
structure A3 where
  cond : Cond
  s : Bool
  rn : RegNum
  rd : RegNum
  rs : RegNum
  shift : ShiftType
  rm : RegNum
deriving DecidableEq, Repr

/-- Format A3 of the compares (R107). -/
structure A3Cmp where
  cond : Cond
  rn : RegNum
  rs : RegNum
  shift : ShiftType
  rm : RegNum
deriving DecidableEq, Repr

/-- Format A3 of MOV, MVN (R107). -/
structure A3Mov where
  cond : Cond
  s : Bool
  rd : RegNum
  rs : RegNum
  shift : ShiftType
  rm : RegNum
deriving DecidableEq, Repr

/-- MRS (R108): r reads the SPSR. -/
structure Mrs where
  cond : Cond
  r : Bool
  rd : RegNum
deriving DecidableEq, Repr

/-- MSR, immediate operand (R109): r writes the SPSR, mask is field_mask. -/
structure MsrImm where
  cond : Cond
  r : Bool
  mask : BitVec 4
  rot : BitVec 4
  imm8 : BitVec 8
deriving DecidableEq, Repr

/-- MSR, register operand (R110). -/
structure MsrReg where
  cond : Cond
  r : Bool
  mask : BitVec 4
  rm : RegNum
deriving DecidableEq, Repr

/-- BX (R111). -/
structure Bx where
  cond : Cond
  rm : RegNum
deriving DecidableEq, Repr

/-- MUL (R112). -/
structure Mul where
  cond : Cond
  s : Bool
  rd : RegNum
  rs : RegNum
  rm : RegNum
deriving DecidableEq, Repr

/-- MLA (R112): rn is the accumulate operand. -/
structure Mla where
  cond : Cond
  s : Bool
  rd : RegNum
  rn : RegNum
  rs : RegNum
  rm : RegNum
deriving DecidableEq, Repr

/-- The long multiplies (R113). -/
structure Mull where
  cond : Cond
  s : Bool
  rdHi : RegNum
  rdLo : RegNum
  rs : RegNum
  rm : RegNum
deriving DecidableEq, Repr

/-- SWP, SWPB (R114): rn address, rd destination, rm source. -/
structure Swp where
  cond : Cond
  rn : RegNum
  rd : RegNum
  rm : RegNum
deriving DecidableEq, Repr

/-- Halfword and signed transfers, register offset (R115). -/
structure HwReg where
  cond : Cond
  p : Bool
  u : Bool
  w : Bool
  rn : RegNum
  rd : RegNum
  rm : RegNum
deriving DecidableEq, Repr

/-- Halfword and signed transfers, immediate offset (R116). -/
structure HwImm where
  cond : Cond
  p : Bool
  u : Bool
  w : Bool
  rn : RegNum
  rd : RegNum
  immHi : BitVec 4
  immLo : BitVec 4
deriving DecidableEq, Repr

/-- Word and byte transfers, immediate offset, P = 1 (R117). -/
structure LsImmPre where
  cond : Cond
  u : Bool
  w : Bool
  rn : RegNum
  rd : RegNum
  off12 : BitVec 12
deriving DecidableEq, Repr

/-- Word and byte transfers, immediate offset, P = 0 (R117); bit 21 tells the T variants apart. -/
structure LsImmPost where
  cond : Cond
  u : Bool
  rn : RegNum
  rd : RegNum
  off12 : BitVec 12
deriving DecidableEq, Repr

/-- Word and byte transfers, register offset, P = 1 (R118). -/
structure LsRegPre where
  cond : Cond
  u : Bool
  w : Bool
  rn : RegNum
  rd : RegNum
  shiftImm : BitVec 5
  shift : ShiftType
  rm : RegNum
deriving DecidableEq, Repr

/-- Word and byte transfers, register offset, P = 0 (R118). -/
structure LsRegPost where
  cond : Cond
  u : Bool
  rn : RegNum
  rd : RegNum
  shiftImm : BitVec 5
  shift : ShiftType
  rm : RegNum
deriving DecidableEq, Repr

/-- The architecturally undefined space (R119); hi and lo are the bits the row leaves unconstrained. -/
structure UndefSpace where
  cond : Cond
  hi : BitVec 20
  lo : BitVec 4
deriving DecidableEq, Repr

/-- Block transfer with a 16-bit register list (R120). -/
structure Block where
  cond : Cond
  p : Bool
  u : Bool
  w : Bool
  rn : RegNum
  list : BitVec 16
deriving DecidableEq, Repr

/-- LDM(2) and LDM(3) (R120): bit 15 of the list is a fixed bit of the row. -/
structure BlockUser where
  cond : Cond
  p : Bool
  u : Bool
  w : Bool
  rn : RegNum
  list : BitVec 15
deriving DecidableEq, Repr

/-- B, BL (R121). -/
structure Branch where
  cond : Cond
  imm24 : BitVec 24
deriving DecidableEq, Repr

/-- LDC, STC (R122). -/
structure CpLs where
  cond : Cond
  p : Bool
  u : Bool
  n : Bool
  w : Bool
  rn : RegNum
  crd : BitVec 4
  cp : BitVec 4
  off8 : BitVec 8
deriving DecidableEq, Repr

/-- CDP (R123). -/
structure CpDp where
  cond : Cond
  op1 : BitVec 4
  crn : BitVec 4
  crd : BitVec 4
  cp : BitVec 4
  op2 : BitVec 3
  crm : BitVec 4
deriving DecidableEq, Repr

/-- MRC, MCR (R124). -/
structure CpRt where
  cond : Cond
  op1 : BitVec 3
  crn : BitVec 4
  rd : RegNum
  cp : BitVec 4
  op2 : BitVec 3
  crm : BitVec 4
deriving DecidableEq, Repr

/-- SWI (R125); the core ignores imm24. -/
structure Swi where
  cond : Cond
  imm24 : BitVec 24
deriving DecidableEq, Repr

/-- Thumb format 1 (R131). -/
structure T1 where
  off5 : BitVec 5
  rs : LoReg
  rd : LoReg
deriving DecidableEq, Repr

/-- Thumb format 2, register operand (R132). -/
structure T2Reg where
  rn : LoReg
  rs : LoReg
  rd : LoReg
deriving DecidableEq, Repr

/-- Thumb format 2, 3-bit immediate (R132). -/
structure T2Imm where
  imm3 : BitVec 3
  rs : LoReg
  rd : LoReg
deriving DecidableEq, Repr

/-- Thumb format 3 (R133). -/
structure T3 where
  rd : LoReg
  imm8 : BitVec 8
deriving DecidableEq, Repr

/-- Thumb format 4 (R134). -/
structure T4 where
  rs : LoReg
  rd : LoReg
deriving DecidableEq, Repr

/-- Thumb format 5 (R135): the register numbers are h1 : rd and h2 : rs. -/
structure T5 where
  h1 : Bool
  h2 : Bool
  rs : LoReg
  rd : LoReg
deriving DecidableEq, Repr

/-- Thumb format 5, BX (R135). -/
structure T5Bx where
  h2 : Bool
  rs : LoReg
deriving DecidableEq, Repr

/-- Thumb formats 6, 11 and 12 (R136, R141, R142): a register and an 8-bit word count. -/
structure T6 where
  rd : LoReg
  word8 : BitVec 8
deriving DecidableEq, Repr

/-- Thumb formats 7 and 8 (R137, R138). -/
structure T7 where
  ro : LoReg
  rb : LoReg
  rd : LoReg
deriving DecidableEq, Repr

/-- Thumb formats 9 and 10 (R139, R140). -/
structure T9 where
  off5 : BitVec 5
  rb : LoReg
  rd : LoReg
deriving DecidableEq, Repr

/-- Thumb format 13 (R143). -/
structure T13 where
  sword7 : BitVec 7
deriving DecidableEq, Repr

/-- Thumb format 14 (R144): r adds r14 (PUSH) or the pc (POP). -/
structure T14 where
  r : Bool
  list : BitVec 8
deriving DecidableEq, Repr

/-- Thumb format 15 (R145). -/
structure T15 where
  rb : LoReg
  list : BitVec 8
deriving DecidableEq, Repr

/-- Thumb formats 16 and 17 (R146, R147): a conditional branch offset, or the ignored comment of SWI. -/
structure T16 where
  off8 : BitVec 8
deriving DecidableEq, Repr

/-- Thumb formats 18 and 19 (R148, R149). -/
structure T18 where
  off11 : BitVec 11
deriving DecidableEq, Repr

/-- The instructions: rows 0 to 105 of spec/opcode_table.json are ARM, rows 106 to 179 (a name that begins with t) Thumb. -/
inductive Instr where
  | andA1 (f : A1)
  | andA2 (f : A2)
  | andA3 (f : A3)
  | eorA1 (f : A1)
  | eorA2 (f : A2)
  | eorA3 (f : A3)
  | subA1 (f : A1)
  | subA2 (f : A2)
  | subA3 (f : A3)
  | rsbA1 (f : A1)
  | rsbA2 (f : A2)
  | rsbA3 (f : A3)
  | addA1 (f : A1)
  | addA2 (f : A2)
  | addA3 (f : A3)
  | adcA1 (f : A1)
  | adcA2 (f : A2)
  | adcA3 (f : A3)
  | sbcA1 (f : A1)
  | sbcA2 (f : A2)
  | sbcA3 (f : A3)
  | rscA1 (f : A1)
  | rscA2 (f : A2)
  | rscA3 (f : A3)
  | tstA1 (f : A1Cmp)
  | tstA2 (f : A2Cmp)
  | tstA3 (f : A3Cmp)
  | teqA1 (f : A1Cmp)
  | teqA2 (f : A2Cmp)
  | teqA3 (f : A3Cmp)
  | cmpA1 (f : A1Cmp)
  | cmpA2 (f : A2Cmp)
  | cmpA3 (f : A3Cmp)
  | cmnA1 (f : A1Cmp)
  | cmnA2 (f : A2Cmp)
  | cmnA3 (f : A3Cmp)
  | orrA1 (f : A1)
  | orrA2 (f : A2)
  | orrA3 (f : A3)
  | movA1 (f : A1Mov)
  | movA2 (f : A2Mov)
  | movA3 (f : A3Mov)
  | bicA1 (f : A1)
  | bicA2 (f : A2)
  | bicA3 (f : A3)
  | mvnA1 (f : A1Mov)
  | mvnA2 (f : A2Mov)
  | mvnA3 (f : A3Mov)
  | mrs (f : Mrs)
  | msrImm (f : MsrImm)
  | msrReg (f : MsrReg)
  | bx (f : Bx)
  | mul (f : Mul)
  | mla (f : Mla)
  | umull (f : Mull)
  | umlal (f : Mull)
  | smull (f : Mull)
  | smlal (f : Mull)
  | swp (f : Swp)
  | swpb (f : Swp)
  | strhReg (f : HwReg)
  | strhImm (f : HwImm)
  | ldrhReg (f : HwReg)
  | ldrhImm (f : HwImm)
  | ldrsbReg (f : HwReg)
  | ldrsbImm (f : HwImm)
  | ldrshReg (f : HwReg)
  | ldrshImm (f : HwImm)
  | ldrImmPre (f : LsImmPre)
  | ldrImmPost (f : LsImmPost)
  | ldrtImm (f : LsImmPost)
  | ldrRegPre (f : LsRegPre)
  | ldrRegPost (f : LsRegPost)
  | ldrtReg (f : LsRegPost)
  | ldrbImmPre (f : LsImmPre)
  | ldrbImmPost (f : LsImmPost)
  | ldrbtImm (f : LsImmPost)
  | ldrbRegPre (f : LsRegPre)
  | ldrbRegPost (f : LsRegPost)
  | ldrbtReg (f : LsRegPost)
  | strImmPre (f : LsImmPre)
  | strImmPost (f : LsImmPost)
  | strtImm (f : LsImmPost)
  | strRegPre (f : LsRegPre)
  | strRegPost (f : LsRegPost)
  | strtReg (f : LsRegPost)
  | strbImmPre (f : LsImmPre)
  | strbImmPost (f : LsImmPost)
  | strbtImm (f : LsImmPost)
  | strbRegPre (f : LsRegPre)
  | strbRegPost (f : LsRegPost)
  | strbtReg (f : LsRegPost)
  | undefined (f : UndefSpace)
  | ldm1 (f : Block)
  | ldm2 (f : BlockUser)
  | ldm3 (f : BlockUser)
  | stm1 (f : Block)
  | stm2 (f : Block)
  | b (f : Branch)
  | bl (f : Branch)
  | ldc (f : CpLs)
  | stc (f : CpLs)
  | cdp (f : CpDp)
  | mrc (f : CpRt)
  | mcr (f : CpRt)
  | swi (f : Swi)
  | tLslImm (f : T1)
  | tLsrImm (f : T1)
  | tAsrImm (f : T1)
  | tAddReg (f : T2Reg)
  | tSubReg (f : T2Reg)
  | tAddImm3 (f : T2Imm)
  | tSubImm3 (f : T2Imm)
  | tMovImm (f : T3)
  | tCmpImm (f : T3)
  | tAddImm8 (f : T3)
  | tSubImm8 (f : T3)
  | tAnd (f : T4)
  | tEor (f : T4)
  | tLslReg (f : T4)
  | tLsrReg (f : T4)
  | tAsrReg (f : T4)
  | tAdc (f : T4)
  | tSbc (f : T4)
  | tRorReg (f : T4)
  | tTst (f : T4)
  | tNeg (f : T4)
  | tCmp (f : T4)
  | tCmn (f : T4)
  | tOrr (f : T4)
  | tMul (f : T4)
  | tBic (f : T4)
  | tMvn (f : T4)
  | tAddHi (f : T5)
  | tCmpHi (f : T5)
  | tMovHi (f : T5)
  | tBx (f : T5Bx)
  | tLdrPc (f : T6)
  | tStrReg (f : T7)
  | tStrbReg (f : T7)
  | tLdrReg (f : T7)
  | tLdrbReg (f : T7)
  | tStrhReg (f : T7)
  | tLdrhReg (f : T7)
  | tLdsb (f : T7)
  | tLdsh (f : T7)
  | tStrImm (f : T9)
  | tLdrImm (f : T9)
  | tStrbImm (f : T9)
  | tLdrbImm (f : T9)
  | tStrhImm (f : T9)
  | tLdrhImm (f : T9)
  | tStrSp (f : T6)
  | tLdrSp (f : T6)
  | tAddPc (f : T6)
  | tAddSp (f : T6)
  | tAddToSp (f : T13)
  | tSubFromSp (f : T13)
  | tPush (f : T14)
  | tPop (f : T14)
  | tStmia (f : T15)
  | tLdmia (f : T15)
  | tBEq (f : T16)
  | tBNe (f : T16)
  | tBCs (f : T16)
  | tBCc (f : T16)
  | tBMi (f : T16)
  | tBPl (f : T16)
  | tBVs (f : T16)
  | tBVc (f : T16)
  | tBHi (f : T16)
  | tBLs (f : T16)
  | tBGe (f : T16)
  | tBLt (f : T16)
  | tBGt (f : T16)
  | tBLe (f : T16)
  | tSwi (f : T16)
  | tB (f : T18)
  | tBlHi (f : T18)
  | tBlLo (f : T18)
deriving DecidableEq, Repr

end Sys2Proof
end

