-- ==== Sys2Proof/Machine/Forms.lean ====
section
/-! DEFINITION. The forms the spec refuses whatever the state is (spec/93_implementation_defined.md, treatment `refuse`):
one restriction per row U<n> that is a matter of the instruction's fields alone, and one check per encoding format. A
meaning makes the check of its format after its condition has passed (spec/40_fetch_decode_dispatch.md R175), and answers
the refusal of that name. -/

namespace Sys2Proof

/-- Why the spec gives an instruction's form no meaning. -/
inductive Restriction where
  /-- U3: r15 in a data-processing instruction with register-specified shift. -/
  | r15WithRegisterShift
  /-- U4: r15 where the instruction does not allow it. -/
  | r15NotAllowed
  /-- U6: a multiply's registers clash. -/
  | multiplyClash
  /-- U8: a base register clashes with the destination, the offset, the source or the pc. -/
  | baseClash
  /-- U9: a halfword or signed transfer with P = 0 and W = 1. -/
  | postIndexedHalfwordW
  /-- U12: the base register is in the list of a block transfer with write-back. -/
  | baseInList
  /-- U14: an empty register list. -/
  | emptyList
  /-- U15: LDM(2) or STM(2) with W = 1. -/
  | userBankWriteBack
  /-- U17: LDC or STC with P = 0, U = 0, W = 0. -/
  | unindexedDown
  /-- U18: a Thumb format 5 operation on two low registers. -/
  | lowRegisters
deriving DecidableEq, Repr

/-- The first restriction of a list whose condition holds. -/
def firstOf : List (Bool × Restriction) → Option Restriction
  | [] => none
  | (b, r) :: rest => if b then some r else firstOf rest

/-- A register field names the pc. -/
def isPc (r : RegNum) : Bool := r == 15#4

/-- Format A3 (spec/41_shifter_alu_flags.md R202). -/
def A3.check (f : A3) : Option Restriction :=
  firstOf [(isPc f.rn || isPc f.rd || isPc f.rs || isPc f.rm, .r15WithRegisterShift)]

/-- Format A3 of the compares (spec/41_shifter_alu_flags.md R202). -/
def A3Cmp.check (f : A3Cmp) : Option Restriction :=
  firstOf [(isPc f.rn || isPc f.rs || isPc f.rm, .r15WithRegisterShift)]

/-- Format A3 of MOV, MVN (spec/41_shifter_alu_flags.md R202). -/
def A3Mov.check (f : A3Mov) : Option Restriction :=
  firstOf [(isPc f.rd || isPc f.rs || isPc f.rm, .r15WithRegisterShift)]

/-- MRS (spec/42_arm_data_processing.md R250). -/
def Mrs.check (f : Mrs) : Option Restriction := firstOf [(isPc f.rd, .r15NotAllowed)]

/-- MSR, register operand (spec/42_arm_data_processing.md R251). -/
def MsrReg.check (f : MsrReg) : Option Restriction := firstOf [(isPc f.rm, .r15NotAllowed)]

/-- MUL (spec/43_arm_multiply.md R260). -/
def Mul.check (f : Mul) : Option Restriction :=
  firstOf [(isPc f.rd || isPc f.rs || isPc f.rm, .r15NotAllowed), (f.rd == f.rm, .multiplyClash)]

/-- MLA (spec/43_arm_multiply.md R260). -/
def Mla.check (f : Mla) : Option Restriction :=
  firstOf [(isPc f.rd || isPc f.rn || isPc f.rs || isPc f.rm, .r15NotAllowed), (f.rd == f.rm, .multiplyClash)]

/-- The long multiplies (spec/43_arm_multiply.md R260). -/
def Mull.check (f : Mull) : Option Restriction :=
  firstOf [(isPc f.rdHi || isPc f.rdLo || isPc f.rs || isPc f.rm, .r15NotAllowed),
    (f.rdHi == f.rdLo || f.rdHi == f.rm || f.rdLo == f.rm, .multiplyClash)]

/-- SWP, SWPB (spec/45_arm_load_store.md R300). -/
def Swp.check (f : Swp) : Option Restriction :=
  firstOf [(isPc f.rn || isPc f.rd || isPc f.rm, .r15NotAllowed), (f.rn == f.rd || f.rn == f.rm, .baseClash)]

/-- Halfword and signed transfers write back after P = 0 and with W = 1 (spec/45_arm_load_store.md R280). -/
def HwReg.writeBack (f : HwReg) : Bool := !f.p || f.w

/-- The same for the immediate offset (spec/45_arm_load_store.md R280). -/
def HwImm.writeBack (f : HwImm) : Bool := !f.p || f.w

/-- Halfword and signed transfers, register offset (spec/45_arm_load_store.md R282). -/
def HwReg.check (f : HwReg) : Option Restriction :=
  firstOf [(!f.p && f.w, .postIndexedHalfwordW), (isPc f.rd || isPc f.rm, .r15NotAllowed),
    (f.writeBack && (isPc f.rn || f.rd == f.rn || f.rm == f.rn), .baseClash)]

/-- Halfword and signed transfers, immediate offset (spec/45_arm_load_store.md R282). -/
def HwImm.check (f : HwImm) : Option Restriction :=
  firstOf [(!f.p && f.w, .postIndexedHalfwordW), (isPc f.rd, .r15NotAllowed),
    (f.writeBack && (isPc f.rn || f.rd == f.rn), .baseClash)]

/-- Word and byte transfers, immediate offset, P = 1: `allowPc` says whether Rd may be r15 (spec/45_arm_load_store.md R282). -/
def LsImmPre.check (allowPc : Bool) (f : LsImmPre) : Option Restriction :=
  firstOf [(!allowPc && isPc f.rd, .r15NotAllowed), (f.w && (isPc f.rn || f.rd == f.rn), .baseClash)]

/-- Word and byte transfers, immediate offset, P = 0 (spec/45_arm_load_store.md R282). -/
def LsImmPost.check (allowPc : Bool) (f : LsImmPost) : Option Restriction :=
  firstOf [(!allowPc && isPc f.rd, .r15NotAllowed), (isPc f.rn || f.rd == f.rn, .baseClash)]

/-- Word and byte transfers, register offset, P = 1 (spec/45_arm_load_store.md R282). -/
def LsRegPre.check (allowPc : Bool) (f : LsRegPre) : Option Restriction :=
  firstOf [((!allowPc && isPc f.rd) || isPc f.rm, .r15NotAllowed),
    (f.w && (isPc f.rn || f.rd == f.rn || f.rm == f.rn), .baseClash)]

/-- Word and byte transfers, register offset, P = 0 (spec/45_arm_load_store.md R282). -/
def LsRegPost.check (allowPc : Bool) (f : LsRegPost) : Option Restriction :=
  firstOf [((!allowPc && isPc f.rd) || isPc f.rm, .r15NotAllowed),
    (isPc f.rn || f.rd == f.rn || f.rm == f.rn, .baseClash)]

/-- Register `r` is the lowest set bit of the list. -/
def isLowest (list : BitVec n) (r : Nat) : Bool :=
  (List.range r).all fun i => !list.getLsbD i

/-- LDM(1) (spec/46_arm_block_transfer.md R313). -/
def Block.checkLoad (f : Block) : Option Restriction :=
  firstOf [(f.list == 0#16, .emptyList), (isPc f.rn, .r15NotAllowed),
    (f.w && f.list.getLsbD f.rn.toNat, .baseInList)]

/-- STM(1) (spec/46_arm_block_transfer.md R313). -/
def Block.checkStore (f : Block) : Option Restriction :=
  firstOf [(f.list == 0#16, .emptyList), (isPc f.rn, .r15NotAllowed),
    (f.w && f.list.getLsbD f.rn.toNat && !isLowest f.list f.rn.toNat, .baseInList)]

/-- STM(2) (spec/46_arm_block_transfer.md R313). -/
def Block.checkUserStore (f : Block) : Option Restriction :=
  firstOf [(f.list == 0#16, .emptyList), (isPc f.rn, .r15NotAllowed), (f.w, .userBankWriteBack)]

/-- LDM(2) (spec/46_arm_block_transfer.md R313). -/
def BlockUser.checkUserLoad (f : BlockUser) : Option Restriction :=
  firstOf [(f.list == 0#15, .emptyList), (isPc f.rn, .r15NotAllowed), (f.w, .userBankWriteBack)]

/-- LDM(3): its list is not empty, since it holds r15 (spec/46_arm_block_transfer.md R313). -/
def BlockUser.checkReturn (f : BlockUser) : Option Restriction :=
  firstOf [(isPc f.rn, .r15NotAllowed), (f.w && f.list.getLsbD f.rn.toNat, .baseInList)]

/-- LDC, STC (spec/47_arm_coprocessor_swi_undefined.md R331). -/
def CpLs.check (f : CpLs) : Option Restriction :=
  firstOf [(!f.p && !f.u && !f.w, .unindexedDown), (f.w && isPc f.rn, .baseClash)]

/-- Thumb MUL (spec/48_thumb_data.md R375). -/
def T4.checkMul (f : T4) : Option Restriction := firstOf [(f.rd == f.rs, .multiplyClash)]

/-- The 4-bit register number of a format 5 destination (spec/48_thumb_data.md, format 5). -/
def T5.hd (f : T5) : RegNum := BitVec.ofBool f.h1 ++ f.rd

/-- The 4-bit register number of a format 5 source. -/
def T5.hs (f : T5) : RegNum := BitVec.ofBool f.h2 ++ f.rs

/-- The 4-bit register number of a format 5 BX source. -/
def T5Bx.hs (f : T5Bx) : RegNum := BitVec.ofBool f.h2 ++ f.rs

/-- Thumb format 5 ADD, MOV (spec/48_thumb_data.md R378, R380). -/
def T5.check (f : T5) : Option Restriction := firstOf [(!f.h1 && !f.h2, .lowRegisters)]

/-- Thumb format 5 CMP (spec/48_thumb_data.md R379). -/
def T5.checkCmp (f : T5) : Option Restriction :=
  firstOf [(!f.h1 && !f.h2, .lowRegisters), (isPc f.hd, .r15NotAllowed)]

/-- PUSH, POP (spec/49_thumb_memory_branch.md R418, R419). -/
def T14.check (f : T14) : Option Restriction := firstOf [(f.list == 0#8 && !f.r, .emptyList)]

/-- Thumb STMIA (spec/49_thumb_memory_branch.md R420). -/
def T15.checkStore (f : T15) : Option Restriction :=
  firstOf [(f.list == 0#8, .emptyList),
    (f.list.getLsbD f.rb.toNat && !isLowest f.list f.rb.toNat, .baseInList)]

/-- Thumb LDMIA (spec/49_thumb_memory_branch.md R421). -/
def T15.checkLoad (f : T15) : Option Restriction := firstOf [(f.list == 0#8, .emptyList)]

end Sys2Proof
end

