-- ==== Sys2Proof/Config.lean ====
section
/-! DEFINITION. What is fixed for one machine and what the spec leaves open.
The parameters of spec/00_scope.md R5 are plain data (their defaults stand in Machine/Params.lean); the values the spec
calls `any value` are opaque constants, so that nothing in Lean can compute one. -/

namespace Sys2Proof

/-- `STORE_PC_OFFSET` (spec/00_scope.md R5, U11): the value stored for r15 is pc + 8 or pc + 12. -/
inductive StorePcOffset where
  | eight
  | twelve
deriving DecidableEq, Repr

/-- Internal and coprocessor cycles of one row of `CycleTable` (spec/00_scope.md R5). -/
structure Cycles where
  i : Nat
  c : Nat
deriving DecidableEq, Repr

/-- The open parameter `CycleTable` (spec/00_scope.md R5; spec/70_reset_and_hazards.md R540): the cycles of each row of the
table of R540, in its order. `m1` to `m4` are the multiplier times (spec/43_arm_multiply.md R261), to which the four rows of
the multiplies add. The rows of a failed condition and of an exception step have no field: R175 and R163 fix them (log 7). -/
structure CycleTable where
  dataImm : Cycles
  dataReg : Cycles
  status : Cycles
  m1 : Nat
  m2 : Nat
  m3 : Nat
  m4 : Nat
  mul : Cycles
  mla : Cycles
  mull : Cycles
  mlal : Cycles
  branch : Cycles
  blFirst : Cycles
  load : Cycles
  store : Cycles
  loadMultiple : Cycles
  storeMultiple : Cycles
  swap : Cycles
  cdp : Cycles
  mrc : Cycles
  mcr : Cycles
  coprocTransfer : Cycles
  trap : Cycles
deriving DecidableEq, Repr

/-- What `GetReg(mode, 15)` returns while the slots are valid: `pc`, as D2 of spec/92_eei_decisions.md rules, or `pc + 2*isz`, as
the words of spec/10_state.md R28, which cites D2, have it. The two differ and the model holds both (log 11). -/
inductive GetRegPc where
  | ahead
  | execute
deriving DecidableEq, Repr

/-- The parameters the spec's model takes as arguments (spec/00_scope.md R5), and the reading of `GetReg(mode, 15)`, which is
the model's own (log 11). -/
structure Params where
  storePcOffset : StorePcOffset
  cycles : CycleTable
  getRegPc : GetRegPc
deriving DecidableEq, Repr

/-- What a coprocessor handler answers (spec/47_arm_coprocessor_swi_undefined.md R320, R323). -/
inductive CoprocResult where
  | handled
  | notHandled
  | faultTriggered
deriving DecidableEq, Repr, Inhabited

/-- FREE VALUE (log 6): the flag bits U7 calls `any value`, one fresh bit per draw. -/
opaque Config.freeBit : Nat → Bool

/-- FREE VALUE (log 6): the words U20 calls `any value`, one fresh word per draw. -/
opaque Config.freeWord : Nat → Word

/-- FREE VALUE (log 8): the result of a handler call whose answer the handler's script does not give. -/
opaque Config.freeResult : Nat → CoprocResult

/-- FREE VALUE (log 8): the word count, less one, that such a call answers (the contract bounds it to 1 to 16). -/
opaque Config.freeCount : Nat → Fin 16

end Sys2Proof
end

