-- ==== Sys2Proof/Machine/Params.lean ====
section
/-! DEFINITION. The parameters' default values (spec/00_scope.md R5, spec/70_reset_and_hazards.md R540). -/

namespace Sys2Proof.Machine

/-- `VECTOR_BASE` (spec/00_scope.md R5). -/
def vectorBase : Word := 0x00000000#32

/-- `CycleTable` at its default values (spec/70_reset_and_hazards.md R540, spec/43_arm_multiply.md R261). -/
def defaultCycles : CycleTable where
  dataImm := ⟨0, 0⟩
  dataReg := ⟨1, 0⟩
  status := ⟨0, 0⟩
  m1 := 1
  m2 := 2
  m3 := 3
  m4 := 4
  mul := ⟨0, 0⟩
  mla := ⟨1, 0⟩
  mull := ⟨1, 0⟩
  mlal := ⟨2, 0⟩
  branch := ⟨0, 0⟩
  blFirst := ⟨0, 0⟩
  load := ⟨1, 0⟩
  store := ⟨0, 0⟩
  loadMultiple := ⟨1, 0⟩
  storeMultiple := ⟨0, 0⟩
  swap := ⟨1, 0⟩
  cdp := ⟨0, 0⟩
  mrc := ⟨1, 1⟩
  mcr := ⟨0, 1⟩
  coprocTransfer := ⟨0, 0⟩
  trap := ⟨0, 0⟩

/-- The parameters at their default values: `STORE_PC_OFFSET` is 12 (spec/00_scope.md R5, U11), and `GetReg(mode, 15)` is the
spec's `pc`, as the decision D2 says that spec/10_state.md R28 cites (log 11). -/
def defaultParams : Params where
  storePcOffset := .twelve
  cycles := defaultCycles
  getRegPc := .execute

/-- The value `STORE_PC_OFFSET` names. -/
def pcOffset : StorePcOffset → Word
  | .eight => 8#32
  | .twelve => 12#32

end Sys2Proof.Machine
end

