-- ==== Sys2Proof/Machine/State.lean ====
section
/-! DEFINITION. The state of the core (spec/10_state.md) as plain data, the reasons a step can stop, and the state after
reset. The memory behind the port and the behaviour of the collaborators, arguments of the spec's step relation, are
plain data here as well; the types of their actions hold exactly what their contracts permit (log 1). -/

namespace Sys2Proof.Machine

/-- The seven modes (R23). -/
inductive Mode where
  | user | fiq | irq | svc | abort | undef | system
deriving DecidableEq, Repr

/-- The general registers by their physical names (R24): r0 to r7; r8 to r12 of the banks other than FIQ; r8 to r12 of
FIQ; r13 of each bank; r14 of each bank. -/
structure Regs where
  lo : Vector Word 8
  nf : Vector Word 5
  fiq : Vector Word 5
  sp : Vector Word 7
  lr : Vector Word 7
deriving DecidableEq, Repr

/-- The CPSR (R35). Bits 27:8 have no storage: they read as zero and ignore writes (R39, log 4). -/
structure Psr where
  n : Bool
  z : Bool
  c : Bool
  v : Bool
  i : Bool
  f : Bool
  t : Bool
  m : Mode
deriving DecidableEq, Repr

/-- The pending abort kind (R43). -/
inductive AbortKind where
  | prefetch
  | data
deriving DecidableEq, Repr

/-- The sticky fault flags (R43 to R45). -/
structure FaultFlags where
  aborted : Option AbortKind
  abortAddr : Word
  reseted : Bool
deriving DecidableEq, Repr

/-- One pipeline shadow slot (R47). -/
structure Slot where
  word : Word
  pabort : Bool
deriving DecidableEq, Repr

/-- The fetch-stream tracker (R48). -/
structure LastFetch where
  valid : Bool
  addr : Word
  size : Word
deriving DecidableEq, Repr

/-- The pipeline shadow state (R47, R48). -/
structure Pipe where
  decoded : Slot
  loaded : Slot
  valid : Bool
  lastFetch : LastFetch
deriving DecidableEq, Repr

/-- The counters and the clock (R49, R50). -/
structure Counters where
  numS : Nat
  numN : Nat
  numI : Nat
  numC : Nat
  numF : Nat
  numInstrs : Nat
  now : Nat
  cost : Nat
deriving DecidableEq, Repr

/-- What every collaborator may do while it runs (spec/20_memory.md R72; spec/47_arm_coprocessor_swi_undefined.md R321;
spec/60_exceptions.md R503). -/
inductive Action where
  | schedule (delay callback : Nat)
  | cancel (handle : Nat)
  | setIrq (level : Bool)
  | setFiq (level : Bool)
  | setStop (flag : Bool)
deriving DecidableEq, Repr

/-- What the memory interface may do during an access (spec/20_memory.md R72, R83). -/
inductive MemAction where
  | act (a : Action)
  | write (address : Word) (value : Byte)
  | abort (address : Word)
deriving DecidableEq, Repr

/-- What the memory interface may do at `Internal` and `CoprocCycle`: it cannot abort there (spec/20_memory.md R72, R83,
R84). -/
inductive IdleAction where
  | act (a : Action)
  | write (address : Word) (value : Byte)
deriving DecidableEq, Repr

/-- The modes with an SPSR, which `GetSPSR` reads (R23, R41). -/
inductive SpsrMode where
  | fiq | irq | svc | abort | undef
deriving DecidableEq, Repr

/-- The operations a handler computes with. -/
inductive WordOp where
  | add | sub | and | or | xor | shl | shr
deriving DecidableEq, Repr

/-- A word a handler computes while it runs (spec/47_arm_coprocessor_swi_undefined.md R321, log 1): from the core registers
through `GetReg` and `GetSPSR` of any valid mode, the CPSR, the 40 bits of the accumulator (R51), the clock
modulo 2^32 (spec/60_exceptions.md R504), and the arguments of the call: its instruction word, its number and its value. -/
inductive HandlerWord where
  | const (v : Word)
  | reg (m : Mode) (n : BitVec 4)
  | spsr (m : SpsrMode)
  | cpsr
  | accLow
  | accHigh
  | time
  | instr
  | number
  | value
  | op (f : WordOp) (a b : HandlerWord)
deriving DecidableEq, Repr

/-- What a handler decides on the words it reads: one of two ways, by a comparison. -/
inductive Choice (α : Type) where
  | leaf (a : α)
  | ifEq (x y : HandlerWord) (yes no : Choice α)
deriving DecidableEq, Repr

/-- What a coprocessor handler may do beside changing its own state (spec/47_arm_coprocessor_swi_undefined.md R321); the
accumulator is within its reach (R51). -/
inductive HandlerAction where
  | act (a : Action)
  | abort (address : Word)
  | setAcc (high low : HandlerWord)
deriving DecidableEq, Repr

/-- What an event callback may do (spec/60_exceptions.md R503). -/
inductive CallbackAction where
  | act (a : Action)
  | write (address : Word) (value : Byte)
  | abort (address : Word)
  | setReset (level : Bool)
deriving DecidableEq, Repr

/-- One answer of a coprocessor handler (spec/47_arm_coprocessor_swi_undefined.md R320, R323). `value` is what MRC
receives; `count` is the number of words of LDC and STC less one, so that it is in 1 to 16 by its type. A not-handled
answer has, by contract, changed nothing. -/
inductive CoprocReply where
  | notHandled
  | faultTriggered (acts : List HandlerAction)
  | handled (acts : List HandlerAction) (value : HandlerWord) (count : Fin 16)
deriving DecidableEq, Repr

/-- What a handler does in one of the calls that return no result (spec/47_arm_coprocessor_swi_undefined.md R320):
`ldc_data`, `stc_data` and `read_reg`; `word` is what the last two return. -/
structure DataReply where
  acts : List HandlerAction
  word : HandlerWord
deriving DecidableEq, Repr

/-- One call a handler has received, with its arguments (spec/47_arm_coprocessor_swi_undefined.md R320). -/
inductive HandlerCall where
  | init
  | exit
  | cdp (instr : Word)
  | mrc (instr : Word)
  | mcr (instr : Word) (value : Word)
  | ldc (instr : Word)
  | ldcData (instr : Word) (k : Nat) (word : Word)
  | stc (instr : Word)
  | stcData (instr : Word) (k : Nat)
  | readReg (r : Nat)
  | writeReg (r : Nat) (value : Word)
deriving DecidableEq, Repr

/-- The handler set bound to a slot: its coming answers and its coming data replies, each chosen by what it reads of the core
when it is called (R321), and the calls it has received, latest first. What it answers when its script is used up is a free value (log 8). -/
structure Handler where
  replies : List (Choice CoprocReply)
  data : List (Choice DataReply)
  calls : List HandlerCall
deriving DecidableEq, Repr

/-- One coprocessor slot (R52). -/
inductive CoprocSlot where
  | unbound
  | bound (h : Handler)
deriving DecidableEq, Repr

/-- One pending deferred callback (R53). `callback` is a reference into the callback table. -/
structure EventNode where
  handle : Nat
  trigger : Nat
  callback : Nat
deriving DecidableEq, Repr

/-- The event queue (R53) and the handle the next `Schedule` returns (the model's own, log 13). -/
structure Scheduler where
  events : List EventNode
  nextHandle : Nat
deriving DecidableEq, Repr

/-- The input lines (R55). -/
structure Lines where
  resetReq : Bool
  fiqLine : Bool
  irqLine : Bool
deriving DecidableEq, Repr

/-- The exception kinds of the vector table that can be taken (spec/60_exceptions.md R450). -/
inductive Exc where
  | reset | undefined | swi | prefetchAbort | dataAbort | irq | fiq
deriving DecidableEq, Repr

/-- Why a step was a halt (spec/40_fetch_decode_dispatch.md R160, R161; spec/60_exceptions.md R510, R511). -/
inductive HaltReason where
  | stop
  | budget
  | caught (e : Exc)
deriving DecidableEq, Repr

/-- The debug state (R54, R56). `halt` is the model's own: it says whether the latest step was a halt (log 2). -/
structure Debug where
  catchMask : BitVec 9
  stopFlag : Bool
  stepBudget : Option Nat
  halt : Option HaltReason
deriving DecidableEq, Repr

/-- Memory: pairs of an address and its byte, in the canonical form `Memory.wf` of Machine/Ops.lean. -/
abbrev Memory := List Host.Cell

/-- The classes of an access (spec/20_memory.md R71). -/
inductive Cls where
  | n
  | s
deriving DecidableEq, Repr

/-- What the memory interface does of its own in one access (spec/20_memory.md R72): before the data move and after it; the
value it answers in place of the bytes of memory, if any; and whether it drops the store. -/
structure Reaction where
  before : List MemAction
  after : List MemAction
  answer : Option Word
  drops : Bool
deriving DecidableEq, Repr

/-- A region whose accesses the memory interface treats specially (spec/20_memory.md R72, R81, R83). An access of a kind
and a class the region names (no class names both), to a byte from `lo` to `hi`, takes the next entry of `script`; when
`aborts` is set it calls `Abort(address)`; a store changes memory only where `storeLands` is set. -/
structure Region where
  lo : Nat
  hi : Nat
  fetch : Bool
  read : Bool
  write : Bool
  cls : Option Cls
  aborts : Bool
  storeLands : Bool
  script : List Reaction
deriving DecidableEq, Repr

/-- One thing a stop of the debug hook asks of the state at the call (spec/60_exceptions.md R512: it may read any state). `pc` is
the execute address the hook is given; r15 of a mode reads as through `GetReg` (log 11). -/
inductive HookTest where
  | pc (value : Word)
  | word (value : Word)
  | reg (mode : Mode) (n : BitVec 4) (value : Word)
  | cpsr (mask value : Word)
  | spsr (slot : Fin 7) (value : Word)
  | byte (address : Word) (value : Byte)
  | retired (count : Nat)
deriving DecidableEq, Repr

/-- A stop of the debug hook (spec/60_exceptions.md R512): where all its tests hold. -/
abbrev Breakpoint := List HookTest

/-- The collaborators' behaviour: whether the memory interface clears `Aborted` at the start of an access (R83, U21), its
regions, what it does at its coming calls of `Internal` and `CoprocCycle`, the callback table (a reference is a position in
it), the answers of the debug hook to its coming calls (a used-up list asks for no stop) and the stops it always makes. -/
structure Collaborators where
  clearsAborted : Bool
  regions : List Region
  internal : List (List IdleAction)
  coprocCycle : List (List IdleAction)
  callbacks : List (List CallbackAction)
  hook : List Bool
  breakpoints : List Breakpoint
deriving DecidableEq, Repr

/-- Collaborators that do nothing, under the contract of spec/20_memory.md R83. -/
def Collaborators.quiet : Collaborators where
  clearsAborted := true
  regions := []
  internal := []
  coprocCycle := []
  callbacks := []
  hook := []
  breakpoints := []

/-- The whole state. -/
structure State where
  /-- The general registers (R24). -/
  regs : Regs
  /-- The execute address (R28). -/
  pc : Word
  /-- The current program status register (R35). -/
  cpsr : Psr
  /-- The seven SPSR slots (R40). -/
  spsr : Vector Word 7
  /-- Aborted, AbortAddr, Reseted (R43 to R45). -/
  fault : FaultFlags
  /-- Storage for the collaborators (R46). -/
  inted : BitVec 2
  /-- Storage for the collaborators (R46). -/
  lastInted : BitVec 2
  /-- The pipeline shadow state (R47, R48). -/
  pipe : Pipe
  /-- The counters and the clock (R49, R50). -/
  ctr : Counters
  /-- The accumulator (R51). -/
  acc : BitVec 64
  /-- The coprocessor table (R52). -/
  coproc : Vector CoprocSlot 16
  /-- The event queue (R53). -/
  sched : Scheduler
  /-- The input lines (R55). -/
  lines : Lines
  /-- The catch mask, the stop flag and the step budget (R54, R56). -/
  dbg : Debug
  /-- The bytes behind the memory port (spec/20_memory.md R70, R71). -/
  mem : Memory
  /-- The collaborators' behaviour (spec/20_memory.md R72; spec/60_exceptions.md R503, R512). -/
  collab : Collaborators
  /-- STORE_PC_OFFSET and CycleTable (spec/00_scope.md R5). -/
  params : Params
  /-- The model's own: how many free values have been drawn (log 6). -/
  freeCount : Nat
deriving DecidableEq, Repr

/-- The faults of a step. -/
inductive Fault where
  /-- Safe: `fault InvalidMode` (spec/60_exceptions.md R458): raised by a CPSR write with an invalid mode number and by an
  SPSR access in USER or SYSTEM mode. The spec gives the machine no next state. -/
  | invalidMode
deriving DecidableEq, Repr

/-- The refusals of a step: the rows of spec/93_implementation_defined.md with treatment `refuse` (log 9). -/
inductive Refusal where
  /-- Safe: raised by an arm of Dispatch.lean whose instruction has no meaning in this model. -/
  | notModelled (mnemonic : String)
  /-- Safe: raised by the meaning of an instruction whose form the spec refuses (U3, U4, U6, U8, U9, U12, U14, U15, U17, U18). -/
  | form (r : Restriction)
  /-- Safe: raised by a halfword load or store at an odd address (U1). -/
  | oddHalfword
  /-- Safe: raised when an ARM word with condition 1111 reaches execution (U2). -/
  | condNever
  /-- Safe: raised by an MSR that would change CPSR.T (U5). -/
  | msrChangesT
  /-- Safe: raised by an instruction that writes a misaligned value to the pc (U10). -/
  | misalignedPc
  /-- Safe: raised by LDM(2) and STM(2) in USER and SYSTEM mode (U15). -/
  | userBankMode
  /-- Safe: raised when a word with a wrong should-be field reaches execution and its condition passes (U19). -/
  | nearMatch
  /-- Safe: raised when execution would run sequentially across the top of the address space (U30). -/
  | wrapAtTop
deriving DecidableEq, Repr

/-- What a meaning answers. -/
abbrev Out := Host.Outcome State Fault Refusal

/-- The CPSR after a cold reset, 0x00000093 (spec/70_reset_and_hazards.md R520). -/
def Psr.reset : Psr where
  n := false
  z := false
  c := false
  v := false
  i := true
  f := false
  t := false
  m := .svc

/-- The general registers after a cold reset (R58); r14 of SVC is a DESIGN CHOICE (log 3). -/
def Regs.reset : Regs where
  lo := .replicate 8 0#32
  nf := .replicate 5 0#32
  fiq := .replicate 5 0#32
  sp := .replicate 7 0#32
  lr := .replicate 7 0#32

/-- The state after a cold reset (R58, spec/70_reset_and_hazards.md R520). The slots hold the words fetched from 0x0 and
0x4 of a memory that lists nothing. r14 and SPSR of SVC are a DESIGN CHOICE (log 3); what an unlisted byte reads as is
log 5; the collaborators' data is log 1. -/
def State.reset : State where
  regs := Regs.reset
  pc := 0x00000000#32
  cpsr := Psr.reset
  spsr := .replicate 7 0#32
  fault := { aborted := none, abortAddr := 0#32, reseted := true }
  inted := 0#2
  lastInted := 0#2
  pipe := {
    decoded := { word := 0#32, pabort := false }
    loaded := { word := 0#32, pabort := false }
    valid := true
    lastFetch := { valid := true, addr := 4#32, size := 4#32 } }
  ctr := { numS := 1, numN := 1, numI := 0, numC := 0, numF := 0, numInstrs := 0, now := 0, cost := 2 }
  acc := 0#64
  coproc := .replicate 16 .unbound
  sched := { events := [], nextHandle := 0 }
  lines := { resetReq := false, fiqLine := false, irqLine := false }
  dbg := { catchMask := 0#9, stopFlag := false, stepBudget := none, halt := none }
  mem := []
  collab := .quiet
  params := defaultParams
  freeCount := 0

end Sys2Proof.Machine
end

