-- ==== Sys2Proof/Machine/Scheduler.lean ====
section
/-! DEFINITION. The event scheduler and the actions of the collaborators (spec/60_exceptions.md R465, R495 to R503;
spec/20_memory.md R72; spec/47_arm_coprocessor_swi_undefined.md R321). -/

namespace Sys2Proof.Machine

/-- What a byte that no cell lists reads as: DESIGN CHOICE (log 5), unsafe. -/
def unlistedByte : Byte := 0#8

/-- The byte at an address. -/
def memGet : Memory → Nat → Byte
  | [], _ => unlistedByte
  | (k, v) :: m, a => if a = k then v else memGet m a

/-- Writing a byte keeps the canonical form: addresses rise, and no cell holds what an unlisted byte reads as. -/
def memSet : Memory → Nat → Byte → Memory
  | [], a, b => if b = unlistedByte then [] else [(a, b)]
  | (k, v) :: m, a, b =>
    if a < k then (if b = unlistedByte then (k, v) :: m else (a, b) :: (k, v) :: m)
    else if a = k then (if b = unlistedByte then m else (a, b) :: m)
    else (k, v) :: memSet m a b

/-- A node goes after every node whose trigger time is less than or equal to its own (R496). -/
def insertEvent (n : EventNode) : List EventNode → List EventNode
  | [] => [n]
  | m :: rest => if m.trigger ≤ n.trigger then m :: insertEvent n rest else n :: m :: rest

/-- `Schedule(delay, callback)` (R496): the handle, and the state with the node inserted. -/
def schedule (delay callback : Nat) (s : State) : Nat × State :=
  let h := s.sched.nextHandle
  let node : EventNode := { handle := h, trigger := s.ctr.now + delay, callback }
  (h, { s with sched := { events := insertEvent node s.sched.events, nextHandle := h + 1 } })

/-- `Cancel(handle)` (R498). -/
def cancel (h : Nat) (s : State) : State :=
  { s with sched := { s.sched with events := s.sched.events.filter fun n => n.handle != h } }

/-- `Time()` (R497). -/
def time (s : State) : Nat := s.ctr.now

/-- `Abort(address)` with the kind of the access in progress (R465, R44). -/
def abortCall (k : AbortKind) (addr : Word) (s : State) : State :=
  if s.fault.aborted = none ∨ (s.fault.aborted = some .prefetch ∧ k = .data) then
    { s with fault := { s.fault with abortAddr := addr, aborted := some k } }
  else s

/-- One action that every collaborator is permitted. -/
def perform (s : State) : Action → State
  | .schedule delay callback => (schedule delay callback s).2
  | .cancel h => cancel h s
  | .setIrq level => { s with lines := { s.lines with irqLine := level } }
  | .setFiq level => { s with lines := { s.lines with fiqLine := level } }
  | .setStop flag => { s with dbg := { s.dbg with stopFlag := flag } }

/-- A byte that a collaborator writes by its own means. -/
def poke (addr : Word) (v : Byte) (s : State) : State := { s with mem := memSet s.mem addr.toNat v }

/-- One permitted action of the memory interface in an access; `k` is the abort kind in force (spec/20_memory.md R72, R465). -/
def performMem (k : AbortKind) (s : State) : MemAction → State
  | .act a => perform s a
  | .write addr v => poke addr v s
  | .abort addr => abortCall k addr s

/-- One permitted action of the memory interface at `Internal` or `CoprocCycle` (spec/20_memory.md R72, R84). -/
def performIdle (s : State) : IdleAction → State
  | .act a => perform s a
  | .write addr v => poke addr v s

/-- One permitted action of an event callback (R503). -/
def performCallback (s : State) : CallbackAction → State
  | .act a => perform s a
  | .write addr v => poke addr v s
  | .abort addr => abortCall .data addr s
  | .setReset level => { s with lines := { s.lines with resetReq := level } }

/-- Invoking a callback reference; one outside the table does nothing (log 19). -/
def invoke (callback : Nat) (s : State) : State :=
  ((s.collab.callbacks[callback]?).getD []).foldl performCallback s

/-- One handle of the snapshot: if its node is still queued, it is removed and its callback invoked (R501). -/
def fire (s : State) (h : Nat) : State :=
  match s.sched.events.find? fun n => n.handle == h with
  | some n => invoke n.callback (cancel h s)
  | none => s

/-- The handles due at a pass, in queue order (R501). -/
def dueHandles (s : State) : List Nat :=
  (s.sched.events.filter fun n => n.trigger ≤ s.ctr.now).map EventNode.handle

/-- `EventPass()` (R501). -/
def eventPass (s : State) : State := (dueHandles s).foldl fire s

end Sys2Proof.Machine
end

