-- ==== Sys2Proof/Machine/Ops.lean ====
section
/-! DEFINITION. The named operations over registers, status registers and memory; the memory port; the pipeline slots and
writes of the pc; taking an exception, and returning from one; calls of a coprocessor handler. -/

namespace Sys2Proof.Machine

/-! ## Modes, banks and registers (spec/10_state.md R23 to R27) -/

/-- The bank of a mode (R23). -/
def Mode.bank : Mode → Fin 7
  | .user => 0
  | .fiq => 1
  | .irq => 2
  | .svc => 3
  | .abort => 4
  | .undef => 5
  | .system => 6

/-- The mode number CPSR.M holds (R23). -/
def Mode.number : Mode → BitVec 5
  | .user => 0b10000#5
  | .fiq => 0b10001#5
  | .irq => 0b10010#5
  | .svc => 0b10011#5
  | .abort => 0b10111#5
  | .undef => 0b11011#5
  | .system => 0b11111#5

/-- The mode a number names; none for the 25 invalid numbers (R23). -/
def modeOfNumber (b : BitVec 5) : Option Mode :=
  match b.toNat with
  | 16 => some .user
  | 17 => some .fiq
  | 18 => some .irq
  | 19 => some .svc
  | 23 => some .abort
  | 27 => some .undef
  | 31 => some .system
  | _ => none

/-- The modes with an SPSR (R23, R40). -/
def Mode.hasSpsr : Mode → Bool
  | .user => false
  | .system => false
  | _ => true

/-- A physical general register (R24). -/
inductive PhysReg where
  | lo (i : Fin 8)
  | nf (i : Fin 5)
  | fiq (i : Fin 5)
  | sp (b : Fin 7)
  | lr (b : Fin 7)
deriving DecidableEq, Repr

/-- `phys(b, i)` of R24; none for r15, which is the pc. -/
def physOf (b : Fin 7) (n : RegNum) : Option PhysReg :=
  if h : n.toNat < 8 then some (.lo ⟨n.toNat, h⟩)
  else if h : n.toNat < 13 then
    let i : Fin 5 := ⟨n.toNat - 8, by omega⟩
    some (if b = 1 then .fiq i else .nf i)
  else if n.toNat = 13 then some (.sp b)
  else if n.toNat = 14 then some (.lr b)
  else none

/-- The value of a physical register. -/
def readPhys (r : Regs) : PhysReg → Word
  | .lo i => r.lo[i]
  | .nf i => r.nf[i]
  | .fiq i => r.fiq[i]
  | .sp b => r.sp[b]
  | .lr b => r.lr[b]

/-- The registers with one physical register written. -/
def writePhys (r : Regs) (p : PhysReg) (v : Word) : Regs :=
  match p with
  | .lo i => { r with lo := r.lo.set i v }
  | .nf i => { r with nf := r.nf.set i v }
  | .fiq i => { r with fiq := r.fiq.set i v }
  | .sp b => { r with sp := r.sp.set b v }
  | .lr b => { r with lr := r.lr.set b v }

/-- `isz`: 2 in Thumb state, 4 in ARM state (spec/00_scope.md R9). -/
def isz (s : State) : Word := if s.cpsr.t then 2#32 else 4#32

/-- What an instruction reads as r15: `pc + 2*isz` (spec/00_scope.md R9, spec/70_reset_and_hazards.md R531). -/
def readPc (s : State) : Word := s.pc + (isz s + isz s)

/-- Register `n` as the given bank sees it. -/
def readBank (s : State) (b : Fin 7) (n : RegNum) : Word :=
  match physOf b n with
  | some p => readPhys s.regs p
  | none => readPc s

/-- What r15 reads as through `GetReg`: by the reading the parameter names, the spec's `pc` (spec/92_eei_decisions.md D2) or
`pc + 2*isz` while the slots are valid (R28), and `pc` by both while they are not (log 11). -/
def getPc (s : State) : Word :=
  match s.params.getRegPc with
  | .ahead => if s.pipe.valid then readPc s else s.pc
  | .execute => s.pc

/-- `GetReg` of a valid mode (R25). -/
def regOf (m : Mode) (n : RegNum) (s : State) : Word := if n = 15#4 then getPc s else readBank s m.bank n

/-- Writing register `n` of the given bank; r15 is not written here, a write of the pc has its own operations. -/
def writeBank (s : State) (b : Fin 7) (n : RegNum) (v : Word) : State :=
  match physOf b n with
  | some p => { s with regs := writePhys s.regs p v }
  | none => s

/-- `x[n]`: the active view (spec/00_scope.md R9, R22). -/
def readReg (s : State) (n : RegNum) : Word := readBank s s.cpsr.m.bank n

/-- `x[n] <- v` for n in 0 to 14 (spec/00_scope.md R9). -/
def writeReg (s : State) (n : RegNum) (v : Word) : State := writeBank s s.cpsr.m.bank n v

/-- `xu[n]` (R26). -/
def readUser (s : State) (n : RegNum) : Word := readBank s Mode.user.bank n

/-- `xu[n] <- v` for n in 0 to 14 (R26). -/
def writeUser (s : State) (n : RegNum) (v : Word) : State := writeBank s Mode.user.bank n v

/-- A Thumb register field as a register number. -/
def low (r : LoReg) : RegNum := r.setWidth 4

/-- The stack pointer's number (R21). -/
def spNum : RegNum := 13#4

/-- The link register's number (R21). -/
def lrNum : RegNum := 14#4

/-- The value STR, STM and MCR take from a register: r15 gives `pc + STORE_PC_OFFSET` (U11). -/
def storeValue (s : State) (n : RegNum) : Word :=
  if n = 15#4 then s.pc + pcOffset s.params.storePcOffset else readReg s n

/-- The same with the user bank's registers (spec/46_arm_block_transfer.md R316). -/
def storeValueUser (s : State) (n : RegNum) : Word :=
  if n = 15#4 then s.pc + pcOffset s.params.storePcOffset else readUser s n

/-! ## Status registers (spec/10_state.md R35 to R41) -/

/-- The 32 bits of the CPSR; bits 27:8 read as zero (R35, R39). -/
def Psr.word (p : Psr) : Word :=
  BitVec.ofBool p.n ++ BitVec.ofBool p.z ++ BitVec.ofBool p.c ++ BitVec.ofBool p.v ++ 0#20 ++
    BitVec.ofBool p.i ++ BitVec.ofBool p.f ++ BitVec.ofBool p.t ++ p.m.number

/-- The CPSR a word gives (R38 (1), (2)); none when its mode number is invalid. -/
def psrOfWord (w : Word) : Option Psr :=
  match modeOfNumber (w.extractLsb' 0 5) with
  | some m => some {
      n := w.getLsbD 31
      z := w.getLsbD 30
      c := w.getLsbD 29
      v := w.getLsbD 28
      i := w.getLsbD 7
      f := w.getLsbD 6
      t := w.getLsbD 5
      m }
  | none => none

/-- `GetSPSR(mode)` (R41); none where the spec says `fault InvalidMode`. -/
def spsrOf (m : Mode) (s : State) : Option Word :=
  if m.hasSpsr then some s.spsr[m.bank] else none

/-- `SetSPSR(mode, v)` (R41); none where the spec says `fault InvalidMode`. -/
def setSpsrOf (m : Mode) (v : Word) (s : State) : Option State :=
  if m.hasSpsr then some { s with spsr := s.spsr.set m.bank v } else none

/-! ## Cycles (spec/20_memory.md R80 to R84) -/

/-- `k` port accesses of a class, charged. -/
def countAccess (c : Cls) (k : Nat) (s : State) : State :=
  match c with
  | .n => { s with ctr := { s.ctr with numN := s.ctr.numN + k, cost := s.ctr.cost + k } }
  | .s => { s with ctr := { s.ctr with numS := s.ctr.numS + k, cost := s.ctr.cost + k } }

/-- The port operation `Internal(n)` (R71, R72): the interface does what its script says of this call. -/
def internalCall (s : State) : State :=
  (s.collab.internal.headD []).foldl performIdle
    { s with collab := { s.collab with internal := s.collab.internal.tail } }

/-- The port operation `CoprocCycle(n)` (R71, R72). -/
def coprocCycleCall (s : State) : State :=
  (s.collab.coprocCycle.headD []).foldl performIdle
    { s with collab := { s.collab with coprocCycle := s.collab.coprocCycle.tail } }

/-- `Icycles(k)` (R84): nothing for k = 0. -/
def icycles (k : Nat) (s : State) : State :=
  if k = 0 then s
  else internalCall { s with ctr := { s.ctr with numI := s.ctr.numI + k, cost := s.ctr.cost + k } }

/-- `Ccycles(k)` (R84): nothing for k = 0. -/
def ccycles (k : Nat) (s : State) : State :=
  if k = 0 then s
  else coprocCycleCall { s with ctr := { s.ctr with numC := s.ctr.numC + k, cost := s.ctr.cost + k } }

/-- The cycles of a row of `CycleTable`, the internal ones first (spec/70_reset_and_hazards.md R540, log 7). -/
def charges (row : Cycles) (s : State) : State := ccycles row.c (icycles row.i s)

/-! ## The memory port (spec/20_memory.md) -/

/-- The form of memory: addresses rise strictly from `lo` on, lie below 2^32, and no cell holds the unlisted byte. -/
def wfFrom : Nat → Memory → Bool
  | _, [] => true
  | lo, (a, b) :: rest => decide (lo ≤ a) && decide (a < 4294967296) && decide (b ≠ unlistedByte) && wfFrom (a + 1) rest

/-- Memory is in its canonical form. -/
def Memory.wf (m : Memory) : Bool := wfFrom 0 m

/-- The widths of an access (R71, R78). -/
inductive Size where
  | byte
  | half
  | word
deriving DecidableEq, Repr

/-- How many bytes a width has. -/
def Size.bytes : Size → Nat
  | .byte => 1
  | .half => 2
  | .word => 4

/-- The lowest byte an access touches: a word access ignores bits 1:0 of its address (R74). -/
def accessBase (sz : Size) (a : Word) : Word :=
  match sz with
  | .word => a &&& 0xFFFFFFFC#32
  | _ => a

/-- The bytes of an access, little-endian and zero-extended (R73). -/
def portLoad (m : Memory) (sz : Size) (a : Word) : Word :=
  let b := accessBase sz a
  match sz with
  | .byte => (memGet m b.toNat).setWidth 32
  | .half => (memGet m (b + 1#32).toNat ++ memGet m b.toNat).setWidth 32
  | .word => memGet m (b + 3#32).toNat ++ memGet m (b + 2#32).toNat ++ memGet m (b + 1#32).toNat ++ memGet m b.toNat

/-- Memory with the low bytes of a value stored, little-endian (R73). -/
def portStore (m : Memory) (sz : Size) (a : Word) (v : Word) : Memory :=
  let b := accessBase sz a
  match sz with
  | .byte => memSet m b.toNat (v.extractLsb' 0 8)
  | .half => memSet (memSet m b.toNat (v.extractLsb' 0 8)) (b + 1#32).toNat (v.extractLsb' 8 8)
  | .word =>
    memSet (memSet (memSet (memSet m b.toNat (v.extractLsb' 0 8)) (b + 1#32).toNat (v.extractLsb' 8 8))
      (b + 2#32).toNat (v.extractLsb' 16 8)) (b + 3#32).toNat (v.extractLsb' 24 8)

/-- The kinds of access the interface sees (R71). -/
inductive Access where
  | fetch
  | read
  | write
  | swap
deriving DecidableEq, Repr

/-- The abort kind of an access: prefetch during `LoadInstr`, else data (spec/60_exceptions.md R465). -/
def Access.abortKind : Access → AbortKind
  | .fetch => .prefetch
  | _ => .data

/-- A region treats this kind of access specially. -/
def Region.covers (r : Region) : Access → Bool
  | .fetch => r.fetch
  | .read => r.read
  | .write => r.write
  | .swap => r.read || r.write

/-- A region lies under the bytes of `sz` at `a`. -/
def Region.spans (sz : Size) (a : Word) (r : Region) : Bool :=
  decide (r.lo < (accessBase sz a).toNat + sz.bytes) && decide ((accessBase sz a).toNat ≤ r.hi)

/-- A region is met by an access of a class and a kind to the bytes of `sz` at `a`. -/
def Region.hit (c : Cls) (k : Access) (sz : Size) (a : Word) (r : Region) : Bool :=
  r.covers k && (r.cls == none || r.cls == some c) && r.spans sz a

/-- What a region does in the next access that meets it; a used-up script does nothing. -/
def Region.reaction (r : Region) : Reaction :=
  r.script.headD { before := [], after := [], answer := none, drops := false }

/-- An action calls `Abort`. -/
def MemAction.aborts : MemAction → Bool
  | .abort _ => true
  | _ => false

/-- A region faults the access before the data move. -/
def Region.faults (r : Region) : Bool := r.aborts || r.reaction.before.any MemAction.aborts

/-- A region stops the store of an access that meets it: for a swap whose read it faults always (R82), else as its data
say (R81, log 1). -/
def Region.blocks (k : Access) (r : Region) : Bool :=
  (k == .swap && r.read && r.faults) || !r.storeLands || r.reaction.drops

/-- A region after an access: one that was met has its script's head used up. -/
def Region.after (c : Cls) (k : Access) (sz : Size) (a : Word) (r : Region) : Region :=
  if r.hit c k sz a then { r with script := r.script.tail } else r

/-- The regions an access meets, in their order (log 17). -/
def met (c : Cls) (k : Access) (sz : Size) (a : Word) (rs : List Region) : List Region := rs.filter (Region.hit c k sz a)

/-- The low bytes of a value. -/
def truncate (sz : Size) (v : Word) : Word :=
  match sz with
  | .byte => (v.setWidth 8).setWidth 32
  | .half => (v.setWidth 16).setWidth 32
  | .word => v

/-- What an access reads: the value of the first region met that answers one, else the bytes of memory. -/
def answered (sz : Size) (a : Word) (ms : List Region) (m : Memory) : Word :=
  match ms.findSome? fun r => r.reaction.answer with
  | some v => truncate sz v
  | none => portLoad m sz a

/-- Clearing `Aborted` at the start of an access (R83); an interface that does not is U21. -/
def clearAborted (s : State) : State :=
  if s.collab.clearsAborted then { s with fault := { s.fault with aborted := none } } else s

/-- What the memory interface does before the data of an access move (R72, R83, log 1, log 17). -/
def touch (c : Cls) (k : Access) (sz : Size) (a : Word) (s : State) : State :=
  let ms := met c k sz a s.collab.regions
  let s1 := clearAborted s
  let s2 := { s1 with collab := { s1.collab with regions := s1.collab.regions.map (Region.after c k sz a) } }
  let s3 := (ms.flatMap fun r => r.reaction.before).foldl (performMem k.abortKind) s2
  if ms.any Region.aborts then abortCall k.abortKind a s3 else s3

/-- The store of an access, if it has one and no region met stops it. -/
def landStore (k : Access) (sz : Size) (a : Word) (store : Option Word) (ms : List Region) (s : State) : State :=
  match store with
  | some v => if ms.any (Region.blocks k) then s else { s with mem := portStore s.mem sz a v }
  | none => s

/-- One access at the port (R71, R72): the interface's actions before it, the value read, the store, and the interface's
actions after it. The cycles are charged by the caller. -/
def access (c : Cls) (k : Access) (sz : Size) (a : Word) (store : Option Word) (s : State) : Word × State :=
  let ms := met c k sz a s.collab.regions
  let s1 := touch c k sz a s
  (answered sz a ms s1.mem,
    (ms.flatMap fun r => r.reaction.after).foldl (performMem k.abortKind) (landStore k sz a store ms s1))

/-- What a data access answers: a value, or that `Aborted` is set after it. -/
inductive Acc (α : Type) where
  | ok (v : α) (s : State)
  | abort (s : State)

/-- The test of `Aborted` "immediately after each access" (R80). -/
def checkAborted (v : α) (s : State) : Acc α :=
  if s.fault.aborted = none then .ok v s else .abort s

/-- `MemRead(addr, n)` (R80). -/
def memRead (c : Cls) (sz : Size) (a : Word) (s : State) : Acc Word :=
  let r := access c .read sz a none (countAccess c 1 s)
  checkAborted r.1 r.2

/-- `MemWrite(addr, n, v)` (R81). -/
def memWrite (c : Cls) (sz : Size) (a v : Word) (s : State) : Acc Unit :=
  checkAborted () (access c .write sz a (some v) (countAccess c 1 s)).2

/-- `MemSwap(addr, n, v)` (R82): both halves are of class N. -/
def memSwap (sz : Size) (a v : Word) (s : State) : Acc Word :=
  let r := access .n .swap sz a (some v) (countAccess .n 2 s)
  checkAborted r.1 r.2

/-- The words of a multi-register load from `a` on, the first access of class `c`, the others S (R85). -/
def readWords : Nat → Cls → Word → State → Acc (List Word)
  | 0, _, _, s => .ok [] s
  | k + 1, c, a, s =>
    match memRead c .word a s with
    | .abort s1 => .abort s1
    | .ok w s1 =>
      match readWords k .s (a + 4#32) s1 with
      | .abort s2 => .abort s2
      | .ok ws s2 => .ok (w :: ws) s2

/-- The words of a multi-register store from `a` on, the first access of class `c`, the others S (R85). -/
def writeWords : List Word → Cls → Word → State → Acc Unit
  | [], _, _, s => .ok () s
  | w :: ws, c, a, s =>
    match memWrite c .word a w s with
    | .abort s1 => .abort s1
    | .ok _ s1 => writeWords ws .s (a + 4#32) s1

/-! ## Fetch, the pipeline slots and the pc (spec/40_fetch_decode_dispatch.md R165 to R171) -/

/-- The class of an instruction fetch: sequential when it continues the fetch stream (R165, spec/10_state.md R48). -/
def fetchClass (a : Word) (l : LastFetch) : Cls :=
  if l.valid = true ∧ a = l.addr + l.size then .s else .n

/-- The width of an instruction fetch. -/
def fetchSize (s : State) : Size := if s.cpsr.t then .half else .word

/-- `Fetch(A)` (R165): the filled slot and the state after. -/
def fetch (a : Word) (s : State) : Slot × State :=
  let c := fetchClass a s.pipe.lastFetch
  let r := access c .fetch (fetchSize s) a none (countAccess c 1 s)
  ({ word := r.1, pabort := r.2.fault.aborted.isSome },
    { r.2 with pipe := { r.2.pipe with lastFetch := { valid := true, addr := a, size := isz s } } })

/-- Invalidating the slots (R170). -/
def flush (s : State) : State :=
  { s with pipe := { s.pipe with valid := false, lastFetch := { s.pipe.lastFetch with valid := false } } }

/-- `Refill()` (R170). -/
def refill (s : State) : State :=
  let f1 := fetch s.pc (flush s)
  let s1 := { f1.2 with pipe := { f1.2.pipe with decoded := f1.1 } }
  let f2 := fetch (s.pc + isz s) s1
  { f2.2 with pipe := { f2.2.pipe with loaded := f2.1, valid := true } }

/-- The value a pc write stores (spec/10_state.md R31). -/
def alignPc (t : Bool) (v : Word) : Word :=
  if t then v &&& 0xFFFFFFFE#32 else v &&& 0xFFFFFFFC#32

/-- A value that is aligned for the instruction set `t` (U10). -/
def aligned (t : Bool) (v : Word) : Bool := alignPc t v == v

/-- `pc <- v` (spec/00_scope.md R9): stored aligned, then the flush and refill. -/
def branchTo (v : Word) (s : State) : State := refill { s with pc := alignPc s.cpsr.t v }

/-- `pc <- v` by an instruction whose misaligned targets are U10. -/
def jump (v : Word) (s : State) : Out :=
  if aligned s.cpsr.t v then .next (branchTo v s) else .refused .misalignedPc

/-- `pc <- pc + isz` without a flush (spec/10_state.md R29); across the top of memory it is refused (R30,
U30, log 15). -/
def advance (s : State) : Out :=
  if s.pc + isz s = 0#32 then .refused .wrapAtTop else .next { s with pc := s.pc + isz s }

/-- BX (spec/44_arm_branch.md R272): bit 0 of the target chooses the instruction set; a halfword address in ARM state is U10. -/
def branchExchange (target : Word) (s : State) : Out :=
  let s1 := { s with cpsr := { s.cpsr with t := target.getLsbD 0 } }
  if target.getLsbD 0 = false ∧ target.getLsbD 1 = true then .refused .misalignedPc
  else .next (branchTo target s1)

/-! ## Exceptions (spec/60_exceptions.md R450, R470 to R474, R511) -/

/-- The index of a kind in the vector table, and its bit of the catch mask (R450). -/
def Exc.index : Exc → Nat
  | .reset => 0
  | .undefined => 1
  | .swi => 2
  | .prefetchAbort => 3
  | .dataAbort => 4
  | .irq => 6
  | .fiq => 7

/-- The target mode of a kind (R450). -/
def Exc.mode : Exc → Mode
  | .reset => .svc
  | .undefined => .undef
  | .swi => .svc
  | .prefetchAbort => .abort
  | .dataAbort => .abort
  | .irq => .irq
  | .fiq => .fiq

/-- The vector address of a kind: `VECTOR_BASE + 4 * index` (R450). -/
def Exc.vector (e : Exc) : Word := vectorBase + BitVec.ofNat 32 (4 * e.index)

/-- The catch mask holds the kind's bit (R510). -/
def caught (e : Exc) (s : State) : Bool := s.dbg.catchMask.getLsbD e.index

/-- `ReturnValue(e)` (R472); `inline` tells a Data Abort raised by an instruction from one found pending at a boundary. -/
def returnValue (inline : Bool) (e : Exc) (s : State) : Word :=
  match e with
  | .undefined => s.pc + isz s
  | .swi => s.pc + isz s
  | .dataAbort => if inline then s.pc + 8#32 else s.pc + 4#32
  | _ => s.pc + 4#32

/-- What entry saves (R470): the return value and the old CPSR in the target bank; for Reset two free values, and the
request is cleared and `Reseted` set (R471, U20, log 6). -/
def saveReturn (inline : Bool) (e : Exc) (s : State) : State :=
  let b := e.mode.bank
  match e with
  | .reset => { s with
      regs := writePhys s.regs (.lr b) (Config.freeWord s.freeCount)
      spsr := s.spsr.set b (Config.freeWord (s.freeCount + 1))
      freeCount := s.freeCount + 2
      lines := { s.lines with resetReq := false }
      fault := { s.fault with reseted := true } }
  | _ => { s with
      regs := writePhys s.regs (.lr b) (returnValue inline e s)
      spsr := s.spsr.set b s.cpsr.word }

/-- `Enter(e)` (R470). -/
def enter (inline : Bool) (e : Exc) (s : State) : State :=
  let s1 := saveReturn inline e s
  let p := { s1.cpsr with m := e.mode, t := false, i := true, f := s1.cpsr.f || e == .fiq }
  refill { s1 with cpsr := p, pc := e.vector }

/-- The debugger's stop in place of an entry (R511): the pc is left, the slots are dropped. -/
def caughtInline (e : Exc) (s : State) : State :=
  { s with pipe := { s.pipe with valid := false }, dbg := { s.dbg with halt := some (.caught e) } }

/-- `raise e` inside an instruction (R470, R511): the entry, or the debugger's stop. -/
def raiseState (e : Exc) (s : State) : State := if caught e s then caughtInline e s else enter true e s

/-- `raise e` as the outcome of an instruction. -/
def raise (e : Exc) (s : State) : Out := .next (raiseState e s)

/-- SWI and an undefined word: the row of `CycleTable` they have is charged with the entry, and a caught one has no effect
(R511, spec/70_reset_and_hazards.md R540, log 7). -/
def trap (e : Exc) (s : State) : Out :=
  .next (if caught e s then caughtInline e s else enter true e (charges s.params.cycles.trap s))

/-- `CPSR <- SPSR` then `pc <- v`: the exception return (R474, spec/41_shifter_alu_flags.md R210). The fault comes before
the refusal of a misaligned target (log 10). -/
def exceptionReturn (v : Word) (s : State) : Out :=
  match spsrOf s.cpsr.m s with
  | none => .fault .invalidMode
  | some w =>
    match psrOfWord w with
    | none => .fault .invalidMode
    | some p => jump v { s with cpsr := p }

/-! ## Coprocessor handlers (spec/47_arm_coprocessor_swi_undefined.md R320 to R323) -/

/-- The mode whose SPSR is read. -/
def SpsrMode.mode : SpsrMode → Mode
  | .fiq => .fiq
  | .irq => .irq
  | .svc => .svc
  | .abort => .abort
  | .undef => .undef

/-- The result of an operation; a shift is by the low five bits. -/
def WordOp.apply : WordOp → Word → Word → Word
  | .add, a, b => a + b
  | .sub, a, b => a - b
  | .and, a, b => a &&& b
  | .or, a, b => a ||| b
  | .xor, a, b => a ^^^ b
  | .shl, a, b => a <<< (b.toNat % 32)
  | .shr, a, b => a >>> (b.toNat % 32)

/-- The instruction word of a call; zero where it has none (R320). -/
def HandlerCall.instr : HandlerCall → Word
  | .init => 0#32
  | .exit => 0#32
  | .cdp i => i
  | .mrc i => i
  | .mcr i _ => i
  | .ldc i => i
  | .ldcData i _ _ => i
  | .stc i => i
  | .stcData i _ => i
  | .readReg _ => 0#32
  | .writeReg _ _ => 0#32

/-- The number a call is given: of the word or of the coprocessor's register; zero where it has none (R320). -/
def HandlerCall.number : HandlerCall → Nat
  | .init => 0
  | .exit => 0
  | .cdp _ => 0
  | .mrc _ => 0
  | .mcr _ _ => 0
  | .ldc _ => 0
  | .ldcData _ k _ => k
  | .stc _ => 0
  | .stcData _ k => k
  | .readReg r => r
  | .writeReg r _ => r

/-- The value a call is given; zero where it has none (R320). -/
def HandlerCall.value : HandlerCall → Word
  | .init => 0#32
  | .exit => 0#32
  | .cdp _ => 0#32
  | .mrc _ => 0#32
  | .mcr _ v => v
  | .ldc _ => 0#32
  | .ldcData _ _ v => v
  | .stc _ => 0#32
  | .stcData _ _ => 0#32
  | .readReg _ => 0#32
  | .writeReg _ v => v

/-- A word a handler computes in a call (R321). DESIGN CHOICE (log 1): the clock is an unbounded natural and a word holds it
modulo 2^32 (spec/60_exceptions.md R504). -/
def HandlerWord.eval (call : HandlerCall) (s : State) : HandlerWord → Word
  | .const v => v
  | .reg m n => regOf m n s
  | .spsr m => s.spsr[m.mode.bank]
  | .cpsr => s.cpsr.word
  | .accLow => s.acc.extractLsb' 0 32
  | .accHigh => (s.acc.extractLsb' 32 8).setWidth 32
  | .time => BitVec.ofNat 32 s.ctr.now
  | .instr => call.instr
  | .number => BitVec.ofNat 32 call.number
  | .value => call.value
  | .op f a b => f.apply (a.eval call s) (b.eval call s)

/-- What a handler chooses in a call. -/
def Choice.pick (call : HandlerCall) (s : State) : Choice α → α
  | .leaf a => a
  | .ifEq x y yes no => if x.eval call s = y.eval call s then yes.pick call s else no.pick call s

/-- One permitted action of a handler in a call (R321, spec/10_state.md R51). -/
def performHandler (call : HandlerCall) (s : State) : HandlerAction → State
  | .act a => perform s a
  | .abort addr => abortCall .data addr s
  | .setAcc high low => { s with acc := high.eval call s ++ low.eval call s }

/-- What a handler answered, and the state after the call. -/
structure CoprocAnswer where
  result : CoprocResult
  value : Word
  words : Nat
  state : State

/-- One call of a handler that answers a result: the next reply of the script is chosen by what the handler reads, the call is
recorded, and the reply's actions performed. A used-up script answers free values (log 8). -/
def callHandler (cp : BitVec 4) (h : Handler) (call : HandlerCall) (s : State) : CoprocAnswer :=
  let put (rest : List (Choice CoprocReply)) : State := { s with
    coproc := s.coproc.set cp.toFin (.bound { h with replies := rest, calls := call :: h.calls }) }
  match h.replies with
  | [] => {
      result := Config.freeResult s.freeCount
      value := Config.freeWord s.freeCount
      words := (Config.freeCount s.freeCount).val + 1
      state := { put [] with freeCount := s.freeCount + 1 } }
  | choice :: rest =>
    match choice.pick call s with
    | .notHandled => { result := .notHandled, value := 0#32, words := 1, state := put rest }
    | .faultTriggered acts =>
      { result := .faultTriggered, value := 0#32, words := 1, state := acts.foldl (performHandler call) (put rest) }
    | .handled acts value count => {
        result := .handled
        value := value.eval call s
        words := count.val + 1
        state := acts.foldl (performHandler call) (put rest) }

/-- One call of a handler that answers no result: `ldc_data`, `stc_data`, `init`, `exit`, and the register accesses of
the debugger; the word is what `stc_data` and `read_reg` return. On an unbound slot there is no handler and nothing happens:
no instruction and no operation of the session asks for the word then (log 21). -/
def callData (cp : BitVec 4) (call : HandlerCall) (s : State) : Word × State :=
  match s.coproc[cp.toFin] with
  | .unbound => (0#32, s)
  | .bound h =>
    let put (rest : List (Choice DataReply)) : State := { s with
      coproc := s.coproc.set cp.toFin (.bound { h with data := rest, calls := call :: h.calls }) }
    match h.data with
    | [] => (Config.freeWord s.freeCount, { put [] with freeCount := s.freeCount + 1 })
    | choice :: rest =>
      let d := choice.pick call s
      (d.word.eval call s, d.acts.foldl (performHandler call) (put rest))

/-- `fault-triggered` (R323): Data Abort when `Aborted` = data, else the instruction retires with no effect. -/
def faultTriggered (s : State) : Out :=
  if s.fault.aborted = some .data then raise .dataAbort s else advance s

/-- The common head of the coprocessor instructions (R322, R323): an unbound slot and a not-handled answer raise
Undefined, fault-triggered commits nothing, and `k` is what the instruction does with the answer of a handled call. -/
def withHandler (cp : BitVec 4) (call : HandlerCall) (k : CoprocAnswer → Out) (s : State) : Out :=
  match s.coproc[cp.toFin] with
  | .unbound => raise .undefined s
  | .bound h =>
    let a := callHandler cp h call s
    match a.result with
    | .notHandled => raise .undefined a.state
    | .faultTriggered => faultTriggered a.state
    | .handled => k a

end Sys2Proof.Machine
end

