-- ==== Sys2Proof/Machine/Flags.lean ====
section
/-! DEFINITION. The condition evaluator, the adder, the sixteen operations of the ALU and the flag computations
(spec/41_shifter_alu_flags.md R205 to R221). -/

namespace Sys2Proof.Machine

/-- `ConditionPassed(cond)` (R220). -/
def conditionPassed (c : Cond) (p : Psr) : Bool :=
  match c with
  | .eq => p.z
  | .ne => !p.z
  | .cs => p.c
  | .cc => !p.c
  | .mi => p.n
  | .pl => !p.n
  | .vs => p.v
  | .vc => !p.v
  | .hi => p.c && !p.z
  | .ls => !p.c || p.z
  | .ge => p.n == p.v
  | .lt => p.n != p.v
  | .gt => !p.z && p.n == p.v
  | .le => p.z || p.n != p.v
  | .al => true

/-- An ARM instruction: its condition is evaluated first (spec/40_fetch_decode_dispatch.md R175), then its form is checked;
a failed condition only advances the pc. A form that its fields refuse is refused before anything of the body could fault
(log 10). -/
def guarded (c : Cond) (check : Option Restriction) (body : State → Out) (s : State) : Out :=
  if conditionPassed c s.cpsr then
    match check with
    | some r => .refused (.form r)
    | none => body s
  else advance s

/-- A Thumb instruction always executes (spec/48_thumb_data.md R350), once its form is checked. -/
def checked (check : Option Restriction) (body : State → Out) (s : State) : Out :=
  match check with
  | some r => .refused (.form r)
  | none => body s

/-- A result with the carry and overflow that go with it. -/
structure AluOut where
  value : Word
  c : Bool
  v : Bool
deriving DecidableEq, Repr

/-- `AddWithCarry(a, b, cin)` (R205): the exact sums decide the carry and the overflow. -/
def addWithCarry (a b : Word) (cin : Bool) : AluOut :=
  let usum := a.toNat + b.toNat + cin.toNat
  let ssum := a.toInt + b.toInt + cin.toNat
  let result := BitVec.ofNat 32 usum
  { value := result, c := decide (4294967296 ≤ usum), v := decide (ssum ≠ result.toInt) }

/-- The sixteen operations (spec/42_arm_data_processing.md R231 to R246). -/
inductive AluOp where
  | and | eor | sub | rsb | add | adc | sbc | rsc | tst | teq | cmp | cmn | orr | mov | bic | mvn
deriving DecidableEq, Repr

/-- A logical operation: C from the shifter, V unchanged (R207). -/
def logical (value : Word) (sc : Bool) (p : Psr) : AluOut := { value, c := sc, v := p.v }

/-- `OP(a, op2)` (spec/42_arm_data_processing.md R231 to R246): `sc` is the shifter carry-out, `p` the CPSR at the start
of the instruction. The carry and overflow are what SetFlags writes (R207, R208). -/
def alu (op : AluOp) (a b : Word) (sc : Bool) (p : Psr) : AluOut :=
  match op with
  | .and => logical (a &&& b) sc p
  | .eor => logical (a ^^^ b) sc p
  | .sub => addWithCarry a (~~~b) true
  | .rsb => addWithCarry (~~~a) b true
  | .add => addWithCarry a b false
  | .adc => addWithCarry a b p.c
  | .sbc => addWithCarry a (~~~b) p.c
  | .rsc => addWithCarry (~~~a) b p.c
  | .tst => logical (a &&& b) sc p
  | .teq => logical (a ^^^ b) sc p
  | .cmp => addWithCarry a (~~~b) true
  | .cmn => addWithCarry a b false
  | .orr => logical (a ||| b) sc p
  | .mov => logical b sc p
  | .bic => logical (a &&& ~~~b) sc p
  | .mvn => logical (~~~b) sc p

/-- N and Z of a 32-bit result (R206). -/
def setNz (r : Word) (s : State) : State :=
  { s with cpsr := { s.cpsr with n := r.getLsbD 31, z := r == 0#32 } }

/-- N, Z, C, V of a result (R206 to R208). -/
def setFlags (r : AluOut) (s : State) : State :=
  { s with cpsr := { s.cpsr with n := r.value.getLsbD 31, z := r.value == 0#32, c := r.c, v := r.v } }

/-- N and Z of a 64-bit result (R206). -/
def setNz64 (r : BitVec 64) (s : State) : State :=
  { s with cpsr := { s.cpsr with n := r.getLsbD 63, z := r == 0#64 } }

/-- C becomes `any value`: one free bit of its own (U7, log 6). -/
def freeC (s : State) : State :=
  { s with cpsr := { s.cpsr with c := Config.freeBit s.freeCount }, freeCount := s.freeCount + 1 }

/-- V becomes `any value`: one free bit of its own (U7, log 6). -/
def freeV (s : State) : State :=
  { s with cpsr := { s.cpsr with v := Config.freeBit s.freeCount }, freeCount := s.freeCount + 1 }

/-- N, Z, C, V from the top bits of a word (spec/47_arm_coprocessor_swi_undefined.md R327). -/
def flagsOfWord (w : Word) (s : State) : State :=
  { s with cpsr := { s.cpsr with n := w.getLsbD 31, z := w.getLsbD 30, c := w.getLsbD 29, v := w.getLsbD 28 } }

end Sys2Proof.Machine
end

