-- ==== Sys2Proof/Machine/Operands.lean ====
section
/-! DEFINITION. The operand forms: the shifter operand (spec/41_shifter_alu_flags.md R200 to R203), the addresses of single
transfers (spec/45_arm_load_store.md R280, R281), block transfers (spec/46_arm_block_transfer.md R310) and coprocessor
transfers (spec/47_arm_coprocessor_swi_undefined.md R331), and branch targets. -/

namespace Sys2Proof.Machine

/-- An operand and the shifter carry-out. -/
structure Shifted where
  value : Word
  carry : Bool
deriving DecidableEq, Repr

/-- The rotated immediate of R200 and spec/30_encoding.md R126 (a). -/
def rotatedImm (rot : BitVec 4) (imm8 : BitVec 8) : Word := (imm8.setWidth 32).rotateRight (2 * rot.toNat)

/-- `ShifterImm(rotate_imm, imm8)` (R200). -/
def shifterImm (rot : BitVec 4) (imm8 : BitVec 8) (c : Bool) : Shifted :=
  let operand := rotatedImm rot imm8
  { value := operand, carry := if rot = 0#4 then c else operand.getLsbD 31 }

/-- 32 copies of bit 31. -/
def signFill (v : Word) : Word := if v.getLsbD 31 then 0xFFFFFFFF#32 else 0#32

/-- RRX: a 33-bit rotate right by one through C (R201). -/
def rrx (v : Word) (c : Bool) : Shifted :=
  { value := (BitVec.ofBool c).setWidth 32 <<< 31 ||| v >>> 1, carry := v.getLsbD 0 }

/-- `ShiftImm(type, n, vm)` (R201). -/
def shiftImm (ty : ShiftType) (n : Nat) (v : Word) (c : Bool) : Shifted :=
  match ty with
  | .lsl => if n = 0 then ⟨v, c⟩ else ⟨v <<< n, v.getLsbD (32 - n)⟩
  | .lsr => if n = 0 then ⟨0#32, v.getLsbD 31⟩ else ⟨v >>> n, v.getLsbD (n - 1)⟩
  | .asr => if n = 0 then ⟨signFill v, v.getLsbD 31⟩ else ⟨v.sshiftRight n, v.getLsbD (n - 1)⟩
  | .ror => if n = 0 then rrx v c else ⟨v.rotateRight n, v.getLsbD (n - 1)⟩

/-- `ShiftReg(type, n, vm)` with n in 0 to 255 (R202). -/
def shiftReg (ty : ShiftType) (n : Nat) (v : Word) (c : Bool) : Shifted :=
  match ty with
  | .lsl =>
    if n = 0 then ⟨v, c⟩ else if n < 32 then ⟨v <<< n, v.getLsbD (32 - n)⟩
    else if n = 32 then ⟨0#32, v.getLsbD 0⟩ else ⟨0#32, false⟩
  | .lsr =>
    if n = 0 then ⟨v, c⟩ else if n < 32 then ⟨v >>> n, v.getLsbD (n - 1)⟩
    else if n = 32 then ⟨0#32, v.getLsbD 31⟩ else ⟨0#32, false⟩
  | .asr =>
    if n = 0 then ⟨v, c⟩ else if n < 32 then ⟨v.sshiftRight n, v.getLsbD (n - 1)⟩
    else ⟨signFill v, v.getLsbD 31⟩
  | .ror =>
    if n = 0 then ⟨v, c⟩ else if n % 32 = 0 then ⟨v, v.getLsbD 31⟩
    else ⟨v.rotateRight (n % 32), v.getLsbD (n % 32 - 1)⟩

/-- `ShiftImmNoCarry(type, shift_imm, Rm)` (R203). -/
def shiftImmNoCarry (ty : ShiftType) (n : Nat) (v : Word) (c : Bool) : Word := (shiftImm ty n v c).value

/-- The amount of a register-specified shift: the least significant byte of Rs (R202). -/
def shiftAmount (s : State) (rs : RegNum) : Nat := (readReg s rs).toNat % 256

/-! ## Addresses -/

/-- An address and the value a write-back gives the base register. -/
structure Address where
  addr : Word
  moved : Word
deriving DecidableEq, Repr

/-- The base moved up or down by an offset. -/
def moveBase (u : Bool) (base off : Word) : Word := if u then base + off else base - off

/-- `Address(P, U, W, Rn, off)` of spec/45_arm_load_store.md R280, and of spec/47_arm_coprocessor_swi_undefined.md R331. -/
def addressOf (p u : Bool) (base off : Word) : Address :=
  let moved := moveBase u base off
  { addr := if p then moved else base, moved }

/-- Word and byte transfers, immediate offset, P = 1 (spec/45_arm_load_store.md R280). -/
def addrImmPre (f : LsImmPre) (s : State) : Address := addressOf true f.u (readReg s f.rn) (f.off12.setWidth 32)

/-- Word and byte transfers, immediate offset, P = 0 (spec/45_arm_load_store.md R280). -/
def addrImmPost (f : LsImmPost) (s : State) : Address := addressOf false f.u (readReg s f.rn) (f.off12.setWidth 32)

/-- The register offset (spec/45_arm_load_store.md R281). -/
def regOffset (ty : ShiftType) (n : BitVec 5) (rm : RegNum) (s : State) : Word :=
  shiftImmNoCarry ty n.toNat (readReg s rm) s.cpsr.c

/-- Word and byte transfers, register offset, P = 1 (spec/45_arm_load_store.md R280, R281). -/
def addrRegPre (f : LsRegPre) (s : State) : Address :=
  addressOf true f.u (readReg s f.rn) (regOffset f.shift f.shiftImm f.rm s)

/-- Word and byte transfers, register offset, P = 0 (spec/45_arm_load_store.md R280, R281). -/
def addrRegPost (f : LsRegPost) (s : State) : Address :=
  addressOf false f.u (readReg s f.rn) (regOffset f.shift f.shiftImm f.rm s)

/-- Halfword and signed transfers, register offset (spec/45_arm_load_store.md R280). -/
def addrHwReg (f : HwReg) (s : State) : Address := addressOf f.p f.u (readReg s f.rn) (readReg s f.rm)

/-- Halfword and signed transfers, immediate offset (spec/45_arm_load_store.md R280, spec/30_encoding.md R126 (c)). -/
def addrHwImm (f : HwImm) (s : State) : Address :=
  addressOf f.p f.u (readReg s f.rn) ((f.immHi ++ f.immLo : BitVec 8).setWidth 32)

/-- LDC, STC (spec/47_arm_coprocessor_swi_undefined.md R331). -/
def addrCp (f : CpLs) (s : State) : Address :=
  addressOf f.p f.u (readReg s f.rn) ((f.off8 ++ 0#2 : BitVec 10).setWidth 32)

/-- The registers of a list, lowest number first (spec/46_arm_block_transfer.md R310). -/
def listRegs (list : BitVec n) : List RegNum :=
  ((List.range n).filter fun i => list.getLsbD i).map fun i => BitVec.ofNat 4 i

/-- The number of bytes a list of registers takes: 4n. -/
def listBytes (regs : List RegNum) : Word := BitVec.ofNat 32 (4 * regs.length)

/-- `start` and `wbv` of a block transfer (spec/46_arm_block_transfer.md R310). -/
def blockAddress (p u : Bool) (base bytes : Word) : Address :=
  match p, u with
  | false, true => { addr := base, moved := base + bytes }
  | true, true => { addr := base + 4#32, moved := base + bytes }
  | false, false => { addr := base - bytes + 4#32, moved := base - bytes }
  | true, false => { addr := base - bytes, moved := base - bytes }

/-- The target of B and BL (spec/44_arm_branch.md R270). -/
def branchTarget (imm24 : BitVec 24) (s : State) : Word := s.pc + 8#32 + (imm24 ++ 0#2 : BitVec 26).signExtend 32

/-- The word-aligned pc of Thumb formats 6 and 12 (spec/48_thumb_data.md R382, spec/49_thumb_memory_branch.md R401). -/
def thumbPcBase (s : State) : Word := (s.pc + 4#32) &&& 0xFFFFFFFC#32

/-- A word offset field. -/
def wordOffset (v : BitVec n) : Word := (v ++ 0#2 : BitVec (n + 2)).setWidth 32

/-- The write-back of a transfer, if it has one. -/
def writeBack (wb : Option (RegNum × Word)) (s : State) : State :=
  match wb with
  | some (rn, v) => writeReg s rn v
  | none => s

/-- The write-back an address gives when the form has one. -/
def wbOf (w : Bool) (rn : RegNum) (a : Address) : Option (RegNum × Word) := if w then some (rn, a.moved) else none

end Sys2Proof.Machine
end

