-- ==== Sys2Proof/Machine/BlockTransfer.lean ====
section
/-! DEFINITION. Block transfers (spec/46_arm_block_transfer.md R310 to R319). -/

namespace Sys2Proof.Machine

/-- The loaded words written to the listed registers of the current bank; r15 is not written here. -/
def writeLoaded : List RegNum → List Word → State → State
  | r :: rs, w :: ws, s => writeLoaded rs ws (writeReg s r w)
  | _, _, s => s

/-- The loaded words written to the listed registers of the User bank. -/
def writeLoadedUser : List RegNum → List Word → State → State
  | r :: rs, w :: ws, s => writeLoadedUser rs ws (writeUser s r w)
  | _, _, s => s

/-- The word loaded for r15: the last one, r15 being the highest register of a list. -/
def pcWord (ws : List Word) : Word := ws.getLast?.getD 0#32

/-- The addresses of a block transfer. -/
def addrBlock (f : Block) (s : State) : Address :=
  blockAddress f.p f.u (readReg s f.rn) (listBytes (listRegs f.list))

/-- The registers of LDM(2). -/
def userRegs (f : BlockUser) : List RegNum := listRegs f.list

/-- The registers of LDM(3): the listed ones and r15. -/
def returnRegs (f : BlockUser) : List RegNum := listRegs f.list ++ [15#4]

/-- The addresses of LDM(2) and LDM(3). -/
def addrBlockUser (regs : List RegNum) (f : BlockUser) (s : State) : Address :=
  blockAddress f.p f.u (readReg s f.rn) (listBytes regs)

/-- A load of `n` words that ends in the Data Abort, or goes on with the words (R319). -/
def loadWords (n : Nat) (a : Word) (k : List Word → State → Out) (s : State) : Out :=
  match readWords n .n a s with
  | .abort s1 => raise .dataAbort s1
  | .ok ws s1 => k ws s1

/-- A store of words that ends in the Data Abort, or goes on (R319). -/
def storeWords (ws : List Word) (a : Word) (k : State → Out) (s : State) : Out :=
  match writeWords ws .n a s with
  | .abort s1 => raise .dataAbort s1
  | .ok _ s1 => k s1

/-- The cycles of a block load (R317, spec/70_reset_and_hazards.md R540). -/
def loadCycles (s : State) : State := charges s.params.cycles.loadMultiple s

/-- The cycles of a block store (R317, spec/70_reset_and_hazards.md R540). -/
def storeCycles (s : State) : State := charges s.params.cycles.storeMultiple s

/-- LDM(1) (R311). -/
def execLdm1 (f : Block) (s : State) : Out :=
  guarded f.cond f.checkLoad (fun s =>
    loadWords (listRegs f.list).length (addrBlock f s).addr (fun ws s1 =>
      let s2 := writeLoaded (listRegs f.list) ws (writeBack (wbOf f.w f.rn (addrBlock f s)) (loadCycles s1))
      if f.list.getLsbD 15 then jump (pcWord ws) s2 else advance s2) s) s

/-- LDM(2) (R314): in USER and SYSTEM mode it is U15. -/
def execLdm2 (f : BlockUser) (s : State) : Out :=
  guarded f.cond f.checkUserLoad (fun s =>
    if s.cpsr.m.hasSpsr then
      loadWords (userRegs f).length (addrBlockUser (userRegs f) f s).addr (fun ws s1 =>
        advance (writeLoadedUser (userRegs f) ws (loadCycles s1))) s
    else .refused .userBankMode) s

/-- LDM(3) (R315): the return from an exception with registers. A form refused by its fields (Rn = r15, U4; W = 1 with Rn in
the list, U12) is refused before anything could fault (log 10). -/
def execLdm3 (f : BlockUser) (s : State) : Out :=
  guarded f.cond f.checkReturn (fun s =>
    loadWords (returnRegs f).length (addrBlockUser (returnRegs f) f s).addr (fun ws s1 =>
      exceptionReturn (pcWord ws)
        (writeLoaded (returnRegs f) ws
          (writeBack (wbOf f.w f.rn (addrBlockUser (returnRegs f) f s)) (loadCycles s1)))) s) s

/-- STM(1) (R312). -/
def execStm1 (f : Block) (s : State) : Out :=
  guarded f.cond f.checkStore (fun s =>
    storeWords ((listRegs f.list).map (storeValue s)) (addrBlock f s).addr
      (fun s1 => advance (writeBack (wbOf f.w f.rn (addrBlock f s)) (storeCycles s1))) s) s

/-- STM(2) (R316): in USER and SYSTEM mode it is U15. -/
def execStm2 (f : Block) (s : State) : Out :=
  guarded f.cond f.checkUserStore (fun s =>
    if s.cpsr.m.hasSpsr then
      storeWords ((listRegs f.list).map (storeValueUser s)) (addrBlock f s).addr (fun s1 => advance (storeCycles s1)) s
    else .refused .userBankMode) s

end Sys2Proof.Machine
end

