-- ==== Sys2Proof/Machine/Branch.lean ====
section
/-! DEFINITION. B, BL, BX (spec/44_arm_branch.md R270 to R272). -/

namespace Sys2Proof.Machine

/-- The cycles of a taken branch (spec/70_reset_and_hazards.md R540). -/
def branchCycles (s : State) : State := charges s.params.cycles.branch s

/-- B (R270). -/
def execB (f : Branch) (s : State) : Out :=
  guarded f.cond none (fun s => .next (branchTo (branchTarget f.imm24 s) (branchCycles s))) s

/-- BL (R271). -/
def execBl (f : Branch) (s : State) : Out :=
  guarded f.cond none (fun s => .next (branchTo (branchTarget f.imm24 s) (writeReg (branchCycles s) lrNum (s.pc + 4#32)))) s

/-- BX (R272). -/
def execBx (f : Bx) (s : State) : Out :=
  guarded f.cond none (fun s => branchExchange (readReg s f.rm) (branchCycles s)) s

end Sys2Proof.Machine
end

