-- ==== Sys2Proof/Decode.lean ====
section
/-! DEFINITION. The decoder and the encoder (spec/30_encoding.md). The rows are those of spec/opcode_table.json: mask, match
and should-be bits as the table has them, and how the row's fields are read. A word is decoded as R102, R103 and R130 say:
the row that matches; else refused, if it is a near match of a row; else an undefined instruction. -/

namespace Sys2Proof

/-- Bits lo+len-1 down to lo of a word. -/
def field (w : BitVec n) (lo len : Nat) : BitVec len := w.extractLsb' lo len

/-- One bit of a word. -/
def bit (w : BitVec n) (i : Nat) : Bool := w.getLsbD i

/-- A flag as a one-bit field. -/
def flagBit (b : Bool) : BitVec 1 := BitVec.ofBool b

/-- The condition numbers (spec/41_shifter_alu_flags.md R220). -/
def condBits : Cond → BitVec 4
  | .eq => 0b0000#4 | .ne => 0b0001#4 | .cs => 0b0010#4 | .cc => 0b0011#4
  | .mi => 0b0100#4 | .pl => 0b0101#4 | .vs => 0b0110#4 | .vc => 0b0111#4
  | .hi => 0b1000#4 | .ls => 0b1001#4 | .ge => 0b1010#4 | .lt => 0b1011#4
  | .gt => 0b1100#4 | .le => 0b1101#4 | .al => 0b1110#4

/-- The condition a 4-bit field names; none for 1111 (R128). -/
def condOfBits (b : BitVec 4) : Option Cond :=
  match b.toNat with
  | 0 => some .eq | 1 => some .ne | 2 => some .cs | 3 => some .cc
  | 4 => some .mi | 5 => some .pl | 6 => some .vs | 7 => some .vc
  | 8 => some .hi | 9 => some .ls | 10 => some .ge | 11 => some .lt
  | 12 => some .gt | 13 => some .le | 14 => some .al | _ => none

/-- The shift type numbers (R106). -/
def shiftBits : ShiftType → BitVec 2
  | .lsl => 0b00#2 | .lsr => 0b01#2 | .asr => 0b10#2 | .ror => 0b11#2

/-- The shift type a 2-bit field names. -/
def shiftOfBits (b : BitVec 2) : ShiftType :=
  match b.toNat with
  | 0 => .lsl | 1 => .lsr | 2 => .asr | _ => .ror

/-- A field's bits put at their place in a word. -/
def place (lo : Nat) (v : BitVec k) : BitVec n := v.setWidth n <<< lo

/-- What the decoder answers for a word: a row's instruction, an undefined instruction, a near match (R103), or an ARM
word with condition 1111 (R128). An ARM word's condition comes with the answer; Thumb has none. -/
inductive Decoded where
  | instr (i : Instr)
  | undefined (cond : Option Cond)
  | nearMatch (cond : Option Cond)
  | never
deriving DecidableEq, Repr

/-- One ARM row: `mask`, `value` (the table's match) and `should`, and the instruction its fields make. -/
structure ArmRow where
  mask : Word
  value : Word
  should : Word
  build : Cond → Word → Instr

/-- One Thumb row. -/
structure ThumbRow where
  mask : Half
  value : Half
  should : Half
  build : Half → Instr

/-- The fields of A1. -/
def readA1 (cond : Cond) (w : Word) : A1 :=
  { cond, s := bit w 20, rn := field w 16 4, rd := field w 12 4, rot := field w 8 4, imm8 := field w 0 8 }

/-- The fields of A1Cmp. -/
def readA1Cmp (cond : Cond) (w : Word) : A1Cmp :=
  { cond, rn := field w 16 4, rot := field w 8 4, imm8 := field w 0 8 }

/-- The fields of A1Mov. -/
def readA1Mov (cond : Cond) (w : Word) : A1Mov :=
  { cond, s := bit w 20, rd := field w 12 4, rot := field w 8 4, imm8 := field w 0 8 }

/-- The fields of A2. -/
def readA2 (cond : Cond) (w : Word) : A2 :=
  { cond, s := bit w 20, rn := field w 16 4, rd := field w 12 4, shiftImm := field w 7 5, shift := shiftOfBits (field w 5 2), rm := field w 0 4 }

/-- The fields of A2Cmp. -/
def readA2Cmp (cond : Cond) (w : Word) : A2Cmp :=
  { cond, rn := field w 16 4, shiftImm := field w 7 5, shift := shiftOfBits (field w 5 2), rm := field w 0 4 }

/-- The fields of A2Mov. -/
def readA2Mov (cond : Cond) (w : Word) : A2Mov :=
  { cond, s := bit w 20, rd := field w 12 4, shiftImm := field w 7 5, shift := shiftOfBits (field w 5 2), rm := field w 0 4 }

/-- The fields of A3. -/
def readA3 (cond : Cond) (w : Word) : A3 :=
  { cond, s := bit w 20, rn := field w 16 4, rd := field w 12 4, rs := field w 8 4, shift := shiftOfBits (field w 5 2), rm := field w 0 4 }

/-- The fields of A3Cmp. -/
def readA3Cmp (cond : Cond) (w : Word) : A3Cmp :=
  { cond, rn := field w 16 4, rs := field w 8 4, shift := shiftOfBits (field w 5 2), rm := field w 0 4 }

/-- The fields of A3Mov. -/
def readA3Mov (cond : Cond) (w : Word) : A3Mov :=
  { cond, s := bit w 20, rd := field w 12 4, rs := field w 8 4, shift := shiftOfBits (field w 5 2), rm := field w 0 4 }

/-- The fields of Mrs. -/
def readMrs (cond : Cond) (w : Word) : Mrs :=
  { cond, r := bit w 22, rd := field w 12 4 }

/-- The fields of MsrImm. -/
def readMsrImm (cond : Cond) (w : Word) : MsrImm :=
  { cond, r := bit w 22, mask := field w 16 4, rot := field w 8 4, imm8 := field w 0 8 }

/-- The fields of MsrReg. -/
def readMsrReg (cond : Cond) (w : Word) : MsrReg :=
  { cond, r := bit w 22, mask := field w 16 4, rm := field w 0 4 }

/-- The fields of Bx. -/
def readBx (cond : Cond) (w : Word) : Bx :=
  { cond, rm := field w 0 4 }

/-- The fields of Mul. -/
def readMul (cond : Cond) (w : Word) : Mul :=
  { cond, s := bit w 20, rd := field w 16 4, rs := field w 8 4, rm := field w 0 4 }

/-- The fields of Mla. -/
def readMla (cond : Cond) (w : Word) : Mla :=
  { cond, s := bit w 20, rd := field w 16 4, rn := field w 12 4, rs := field w 8 4, rm := field w 0 4 }

/-- The fields of Mull. -/
def readMull (cond : Cond) (w : Word) : Mull :=
  { cond, s := bit w 20, rdHi := field w 16 4, rdLo := field w 12 4, rs := field w 8 4, rm := field w 0 4 }

/-- The fields of Swp. -/
def readSwp (cond : Cond) (w : Word) : Swp :=
  { cond, rn := field w 16 4, rd := field w 12 4, rm := field w 0 4 }

/-- The fields of HwReg. -/
def readHwReg (cond : Cond) (w : Word) : HwReg :=
  { cond, p := bit w 24, u := bit w 23, w := bit w 21, rn := field w 16 4, rd := field w 12 4, rm := field w 0 4 }

/-- The fields of HwImm. -/
def readHwImm (cond : Cond) (w : Word) : HwImm :=
  { cond, p := bit w 24, u := bit w 23, w := bit w 21, rn := field w 16 4, rd := field w 12 4, immHi := field w 8 4, immLo := field w 0 4 }

/-- The fields of LsImmPre. -/
def readLsImmPre (cond : Cond) (w : Word) : LsImmPre :=
  { cond, u := bit w 23, w := bit w 21, rn := field w 16 4, rd := field w 12 4, off12 := field w 0 12 }

/-- The fields of LsImmPost. -/
def readLsImmPost (cond : Cond) (w : Word) : LsImmPost :=
  { cond, u := bit w 23, rn := field w 16 4, rd := field w 12 4, off12 := field w 0 12 }

/-- The fields of LsRegPre. -/
def readLsRegPre (cond : Cond) (w : Word) : LsRegPre :=
  { cond, u := bit w 23, w := bit w 21, rn := field w 16 4, rd := field w 12 4, shiftImm := field w 7 5, shift := shiftOfBits (field w 5 2), rm := field w 0 4 }

/-- The fields of LsRegPost. -/
def readLsRegPost (cond : Cond) (w : Word) : LsRegPost :=
  { cond, u := bit w 23, rn := field w 16 4, rd := field w 12 4, shiftImm := field w 7 5, shift := shiftOfBits (field w 5 2), rm := field w 0 4 }

/-- The fields of UndefSpace. -/
def readUndefSpace (cond : Cond) (w : Word) : UndefSpace :=
  { cond, hi := field w 5 20, lo := field w 0 4 }

/-- The fields of Block. -/
def readBlock (cond : Cond) (w : Word) : Block :=
  { cond, p := bit w 24, u := bit w 23, w := bit w 21, rn := field w 16 4, list := field w 0 16 }

/-- The fields of BlockUser. -/
def readBlockUser (cond : Cond) (w : Word) : BlockUser :=
  { cond, p := bit w 24, u := bit w 23, w := bit w 21, rn := field w 16 4, list := field w 0 15 }

/-- The fields of Branch. -/
def readBranch (cond : Cond) (w : Word) : Branch :=
  { cond, imm24 := field w 0 24 }

/-- The fields of CpLs. -/
def readCpLs (cond : Cond) (w : Word) : CpLs :=
  { cond, p := bit w 24, u := bit w 23, n := bit w 22, w := bit w 21, rn := field w 16 4, crd := field w 12 4, cp := field w 8 4, off8 := field w 0 8 }

/-- The fields of CpDp. -/
def readCpDp (cond : Cond) (w : Word) : CpDp :=
  { cond, op1 := field w 20 4, crn := field w 16 4, crd := field w 12 4, cp := field w 8 4, op2 := field w 5 3, crm := field w 0 4 }

/-- The fields of CpRt. -/
def readCpRt (cond : Cond) (w : Word) : CpRt :=
  { cond, op1 := field w 21 3, crn := field w 16 4, rd := field w 12 4, cp := field w 8 4, op2 := field w 5 3, crm := field w 0 4 }

/-- The fields of Swi. -/
def readSwi (cond : Cond) (w : Word) : Swi :=
  { cond, imm24 := field w 0 24 }

/-- The fields of T1. -/
def readT1 (h : Half) : T1 :=
  { off5 := field h 6 5, rs := field h 3 3, rd := field h 0 3 }

/-- The fields of T2Reg. -/
def readT2Reg (h : Half) : T2Reg :=
  { rn := field h 6 3, rs := field h 3 3, rd := field h 0 3 }

/-- The fields of T2Imm. -/
def readT2Imm (h : Half) : T2Imm :=
  { imm3 := field h 6 3, rs := field h 3 3, rd := field h 0 3 }

/-- The fields of T3. -/
def readT3 (h : Half) : T3 :=
  { rd := field h 8 3, imm8 := field h 0 8 }

/-- The fields of T4. -/
def readT4 (h : Half) : T4 :=
  { rs := field h 3 3, rd := field h 0 3 }

/-- The fields of T5. -/
def readT5 (h : Half) : T5 :=
  { h1 := bit h 7, h2 := bit h 6, rs := field h 3 3, rd := field h 0 3 }

/-- The fields of T5Bx. -/
def readT5Bx (h : Half) : T5Bx :=
  { h2 := bit h 6, rs := field h 3 3 }

/-- The fields of T6. -/
def readT6 (h : Half) : T6 :=
  { rd := field h 8 3, word8 := field h 0 8 }

/-- The fields of T7. -/
def readT7 (h : Half) : T7 :=
  { ro := field h 6 3, rb := field h 3 3, rd := field h 0 3 }

/-- The fields of T9. -/
def readT9 (h : Half) : T9 :=
  { off5 := field h 6 5, rb := field h 3 3, rd := field h 0 3 }

/-- The fields of T13. -/
def readT13 (h : Half) : T13 :=
  { sword7 := field h 0 7 }

/-- The fields of T14. -/
def readT14 (h : Half) : T14 :=
  { r := bit h 8, list := field h 0 8 }

/-- The fields of T15. -/
def readT15 (h : Half) : T15 :=
  { rb := field h 8 3, list := field h 0 8 }

/-- The fields of T16. -/
def readT16 (h : Half) : T16 :=
  { off8 := field h 0 8 }

/-- The fields of T18. -/
def readT18 (h : Half) : T18 :=
  { off11 := field h 0 11 }

/-- Rows of the 32-bit table. -/
def armRowsPart0 : List ArmRow := [
  ⟨0x0FE00000, 0x02000000, 0x00000000, fun c w => .andA1 (readA1 c w)⟩,
  ⟨0x0FE00010, 0x00000000, 0x00000000, fun c w => .andA2 (readA2 c w)⟩,
  ⟨0x0FE00090, 0x00000010, 0x00000000, fun c w => .andA3 (readA3 c w)⟩,
  ⟨0x0FE00000, 0x02200000, 0x00000000, fun c w => .eorA1 (readA1 c w)⟩,
  ⟨0x0FE00010, 0x00200000, 0x00000000, fun c w => .eorA2 (readA2 c w)⟩,
  ⟨0x0FE00090, 0x00200010, 0x00000000, fun c w => .eorA3 (readA3 c w)⟩,
  ⟨0x0FE00000, 0x02400000, 0x00000000, fun c w => .subA1 (readA1 c w)⟩,
  ⟨0x0FE00010, 0x00400000, 0x00000000, fun c w => .subA2 (readA2 c w)⟩,
  ⟨0x0FE00090, 0x00400010, 0x00000000, fun c w => .subA3 (readA3 c w)⟩,
  ⟨0x0FE00000, 0x02600000, 0x00000000, fun c w => .rsbA1 (readA1 c w)⟩,
  ⟨0x0FE00010, 0x00600000, 0x00000000, fun c w => .rsbA2 (readA2 c w)⟩,
  ⟨0x0FE00090, 0x00600010, 0x00000000, fun c w => .rsbA3 (readA3 c w)⟩,
  ⟨0x0FE00000, 0x02800000, 0x00000000, fun c w => .addA1 (readA1 c w)⟩,
  ⟨0x0FE00010, 0x00800000, 0x00000000, fun c w => .addA2 (readA2 c w)⟩,
  ⟨0x0FE00090, 0x00800010, 0x00000000, fun c w => .addA3 (readA3 c w)⟩,
  ⟨0x0FE00000, 0x02A00000, 0x00000000, fun c w => .adcA1 (readA1 c w)⟩,
  ⟨0x0FE00010, 0x00A00000, 0x00000000, fun c w => .adcA2 (readA2 c w)⟩,
  ⟨0x0FE00090, 0x00A00010, 0x00000000, fun c w => .adcA3 (readA3 c w)⟩,
  ⟨0x0FE00000, 0x02C00000, 0x00000000, fun c w => .sbcA1 (readA1 c w)⟩,
  ⟨0x0FE00010, 0x00C00000, 0x00000000, fun c w => .sbcA2 (readA2 c w)⟩,
  ⟨0x0FE00090, 0x00C00010, 0x00000000, fun c w => .sbcA3 (readA3 c w)⟩,
  ⟨0x0FE00000, 0x02E00000, 0x00000000, fun c w => .rscA1 (readA1 c w)⟩,
  ⟨0x0FE00010, 0x00E00000, 0x00000000, fun c w => .rscA2 (readA2 c w)⟩,
  ⟨0x0FE00090, 0x00E00010, 0x00000000, fun c w => .rscA3 (readA3 c w)⟩,
  ⟨0x0FF0F000, 0x03100000, 0x0000F000, fun c w => .tstA1 (readA1Cmp c w)⟩,
  ⟨0x0FF0F010, 0x01100000, 0x0000F000, fun c w => .tstA2 (readA2Cmp c w)⟩,
  ⟨0x0FF0F090, 0x01100010, 0x0000F000, fun c w => .tstA3 (readA3Cmp c w)⟩]

/-- Rows of the 32-bit table. -/
def armRowsPart1 : List ArmRow := [
  ⟨0x0FF0F000, 0x03300000, 0x0000F000, fun c w => .teqA1 (readA1Cmp c w)⟩,
  ⟨0x0FF0F010, 0x01300000, 0x0000F000, fun c w => .teqA2 (readA2Cmp c w)⟩,
  ⟨0x0FF0F090, 0x01300010, 0x0000F000, fun c w => .teqA3 (readA3Cmp c w)⟩,
  ⟨0x0FF0F000, 0x03500000, 0x0000F000, fun c w => .cmpA1 (readA1Cmp c w)⟩,
  ⟨0x0FF0F010, 0x01500000, 0x0000F000, fun c w => .cmpA2 (readA2Cmp c w)⟩,
  ⟨0x0FF0F090, 0x01500010, 0x0000F000, fun c w => .cmpA3 (readA3Cmp c w)⟩,
  ⟨0x0FF0F000, 0x03700000, 0x0000F000, fun c w => .cmnA1 (readA1Cmp c w)⟩,
  ⟨0x0FF0F010, 0x01700000, 0x0000F000, fun c w => .cmnA2 (readA2Cmp c w)⟩,
  ⟨0x0FF0F090, 0x01700010, 0x0000F000, fun c w => .cmnA3 (readA3Cmp c w)⟩,
  ⟨0x0FE00000, 0x03800000, 0x00000000, fun c w => .orrA1 (readA1 c w)⟩,
  ⟨0x0FE00010, 0x01800000, 0x00000000, fun c w => .orrA2 (readA2 c w)⟩,
  ⟨0x0FE00090, 0x01800010, 0x00000000, fun c w => .orrA3 (readA3 c w)⟩,
  ⟨0x0FEF0000, 0x03A00000, 0x000F0000, fun c w => .movA1 (readA1Mov c w)⟩,
  ⟨0x0FEF0010, 0x01A00000, 0x000F0000, fun c w => .movA2 (readA2Mov c w)⟩,
  ⟨0x0FEF0090, 0x01A00010, 0x000F0000, fun c w => .movA3 (readA3Mov c w)⟩,
  ⟨0x0FE00000, 0x03C00000, 0x00000000, fun c w => .bicA1 (readA1 c w)⟩,
  ⟨0x0FE00010, 0x01C00000, 0x00000000, fun c w => .bicA2 (readA2 c w)⟩,
  ⟨0x0FE00090, 0x01C00010, 0x00000000, fun c w => .bicA3 (readA3 c w)⟩,
  ⟨0x0FEF0000, 0x03E00000, 0x000F0000, fun c w => .mvnA1 (readA1Mov c w)⟩,
  ⟨0x0FEF0010, 0x01E00000, 0x000F0000, fun c w => .mvnA2 (readA2Mov c w)⟩,
  ⟨0x0FEF0090, 0x01E00010, 0x000F0000, fun c w => .mvnA3 (readA3Mov c w)⟩,
  ⟨0x0FBF0FFF, 0x010F0000, 0x000F0FFF, fun c w => .mrs (readMrs c w)⟩,
  ⟨0x0FB0F000, 0x0320F000, 0x0000F000, fun c w => .msrImm (readMsrImm c w)⟩,
  ⟨0x0FB0FFF0, 0x0120F000, 0x0000FF00, fun c w => .msrReg (readMsrReg c w)⟩,
  ⟨0x0FFFFFF0, 0x012FFF10, 0x000FFF00, fun c w => .bx (readBx c w)⟩,
  ⟨0x0FE0F0F0, 0x00000090, 0x0000F000, fun c w => .mul (readMul c w)⟩,
  ⟨0x0FE000F0, 0x00200090, 0x00000000, fun c w => .mla (readMla c w)⟩]

/-- Rows of the 32-bit table. -/
def armRowsPart2 : List ArmRow := [
  ⟨0x0FE000F0, 0x00800090, 0x00000000, fun c w => .umull (readMull c w)⟩,
  ⟨0x0FE000F0, 0x00A00090, 0x00000000, fun c w => .umlal (readMull c w)⟩,
  ⟨0x0FE000F0, 0x00C00090, 0x00000000, fun c w => .smull (readMull c w)⟩,
  ⟨0x0FE000F0, 0x00E00090, 0x00000000, fun c w => .smlal (readMull c w)⟩,
  ⟨0x0FF00FF0, 0x01000090, 0x00000F00, fun c w => .swp (readSwp c w)⟩,
  ⟨0x0FF00FF0, 0x01400090, 0x00000F00, fun c w => .swpb (readSwp c w)⟩,
  ⟨0x0E500FF0, 0x000000B0, 0x00000F00, fun c w => .strhReg (readHwReg c w)⟩,
  ⟨0x0E5000F0, 0x004000B0, 0x00000000, fun c w => .strhImm (readHwImm c w)⟩,
  ⟨0x0E500FF0, 0x001000B0, 0x00000F00, fun c w => .ldrhReg (readHwReg c w)⟩,
  ⟨0x0E5000F0, 0x005000B0, 0x00000000, fun c w => .ldrhImm (readHwImm c w)⟩,
  ⟨0x0E500FF0, 0x001000D0, 0x00000F00, fun c w => .ldrsbReg (readHwReg c w)⟩,
  ⟨0x0E5000F0, 0x005000D0, 0x00000000, fun c w => .ldrsbImm (readHwImm c w)⟩,
  ⟨0x0E500FF0, 0x001000F0, 0x00000F00, fun c w => .ldrshReg (readHwReg c w)⟩,
  ⟨0x0E5000F0, 0x005000F0, 0x00000000, fun c w => .ldrshImm (readHwImm c w)⟩,
  ⟨0x0F500000, 0x05100000, 0x00000000, fun c w => .ldrImmPre (readLsImmPre c w)⟩,
  ⟨0x0F700000, 0x04100000, 0x00000000, fun c w => .ldrImmPost (readLsImmPost c w)⟩,
  ⟨0x0F700000, 0x04300000, 0x00000000, fun c w => .ldrtImm (readLsImmPost c w)⟩,
  ⟨0x0F500010, 0x07100000, 0x00000000, fun c w => .ldrRegPre (readLsRegPre c w)⟩,
  ⟨0x0F700010, 0x06100000, 0x00000000, fun c w => .ldrRegPost (readLsRegPost c w)⟩,
  ⟨0x0F700010, 0x06300000, 0x00000000, fun c w => .ldrtReg (readLsRegPost c w)⟩,
  ⟨0x0F500000, 0x05500000, 0x00000000, fun c w => .ldrbImmPre (readLsImmPre c w)⟩,
  ⟨0x0F700000, 0x04500000, 0x00000000, fun c w => .ldrbImmPost (readLsImmPost c w)⟩,
  ⟨0x0F700000, 0x04700000, 0x00000000, fun c w => .ldrbtImm (readLsImmPost c w)⟩,
  ⟨0x0F500010, 0x07500000, 0x00000000, fun c w => .ldrbRegPre (readLsRegPre c w)⟩,
  ⟨0x0F700010, 0x06500000, 0x00000000, fun c w => .ldrbRegPost (readLsRegPost c w)⟩,
  ⟨0x0F700010, 0x06700000, 0x00000000, fun c w => .ldrbtReg (readLsRegPost c w)⟩,
  ⟨0x0F500000, 0x05000000, 0x00000000, fun c w => .strImmPre (readLsImmPre c w)⟩]

/-- Rows of the 32-bit table. -/
def armRowsPart3 : List ArmRow := [
  ⟨0x0F700000, 0x04000000, 0x00000000, fun c w => .strImmPost (readLsImmPost c w)⟩,
  ⟨0x0F700000, 0x04200000, 0x00000000, fun c w => .strtImm (readLsImmPost c w)⟩,
  ⟨0x0F500010, 0x07000000, 0x00000000, fun c w => .strRegPre (readLsRegPre c w)⟩,
  ⟨0x0F700010, 0x06000000, 0x00000000, fun c w => .strRegPost (readLsRegPost c w)⟩,
  ⟨0x0F700010, 0x06200000, 0x00000000, fun c w => .strtReg (readLsRegPost c w)⟩,
  ⟨0x0F500000, 0x05400000, 0x00000000, fun c w => .strbImmPre (readLsImmPre c w)⟩,
  ⟨0x0F700000, 0x04400000, 0x00000000, fun c w => .strbImmPost (readLsImmPost c w)⟩,
  ⟨0x0F700000, 0x04600000, 0x00000000, fun c w => .strbtImm (readLsImmPost c w)⟩,
  ⟨0x0F500010, 0x07400000, 0x00000000, fun c w => .strbRegPre (readLsRegPre c w)⟩,
  ⟨0x0F700010, 0x06400000, 0x00000000, fun c w => .strbRegPost (readLsRegPost c w)⟩,
  ⟨0x0F700010, 0x06600000, 0x00000000, fun c w => .strbtReg (readLsRegPost c w)⟩,
  ⟨0x0E000010, 0x06000010, 0x00000000, fun c w => .undefined (readUndefSpace c w)⟩,
  ⟨0x0E500000, 0x08100000, 0x00000000, fun c w => .ldm1 (readBlock c w)⟩,
  ⟨0x0E508000, 0x08500000, 0x00000000, fun c w => .ldm2 (readBlockUser c w)⟩,
  ⟨0x0E508000, 0x08508000, 0x00000000, fun c w => .ldm3 (readBlockUser c w)⟩,
  ⟨0x0E500000, 0x08000000, 0x00000000, fun c w => .stm1 (readBlock c w)⟩,
  ⟨0x0E500000, 0x08400000, 0x00000000, fun c w => .stm2 (readBlock c w)⟩,
  ⟨0x0F000000, 0x0A000000, 0x00000000, fun c w => .b (readBranch c w)⟩,
  ⟨0x0F000000, 0x0B000000, 0x00000000, fun c w => .bl (readBranch c w)⟩,
  ⟨0x0E100000, 0x0C100000, 0x00000000, fun c w => .ldc (readCpLs c w)⟩,
  ⟨0x0E100000, 0x0C000000, 0x00000000, fun c w => .stc (readCpLs c w)⟩,
  ⟨0x0F000010, 0x0E000000, 0x00000000, fun c w => .cdp (readCpDp c w)⟩,
  ⟨0x0F100010, 0x0E100010, 0x00000000, fun c w => .mrc (readCpRt c w)⟩,
  ⟨0x0F100010, 0x0E000010, 0x00000000, fun c w => .mcr (readCpRt c w)⟩,
  ⟨0x0F000000, 0x0F000000, 0x00000000, fun c w => .swi (readSwi c w)⟩]

/-- The 32-bit table, in the order of spec/opcode_table.json. -/
def armRows : List ArmRow :=
  armRowsPart0 ++ armRowsPart1 ++ armRowsPart2 ++ armRowsPart3

/-- Rows of the 16-bit table. -/
def thumbRowsPart0 : List ThumbRow := [
  ⟨0xF800, 0x0000, 0x0000, fun h => .tLslImm (readT1 h)⟩,
  ⟨0xF800, 0x0800, 0x0000, fun h => .tLsrImm (readT1 h)⟩,
  ⟨0xF800, 0x1000, 0x0000, fun h => .tAsrImm (readT1 h)⟩,
  ⟨0xFE00, 0x1800, 0x0000, fun h => .tAddReg (readT2Reg h)⟩,
  ⟨0xFE00, 0x1A00, 0x0000, fun h => .tSubReg (readT2Reg h)⟩,
  ⟨0xFE00, 0x1C00, 0x0000, fun h => .tAddImm3 (readT2Imm h)⟩,
  ⟨0xFE00, 0x1E00, 0x0000, fun h => .tSubImm3 (readT2Imm h)⟩,
  ⟨0xF800, 0x2000, 0x0000, fun h => .tMovImm (readT3 h)⟩,
  ⟨0xF800, 0x2800, 0x0000, fun h => .tCmpImm (readT3 h)⟩,
  ⟨0xF800, 0x3000, 0x0000, fun h => .tAddImm8 (readT3 h)⟩,
  ⟨0xF800, 0x3800, 0x0000, fun h => .tSubImm8 (readT3 h)⟩,
  ⟨0xFFC0, 0x4000, 0x0000, fun h => .tAnd (readT4 h)⟩,
  ⟨0xFFC0, 0x4040, 0x0000, fun h => .tEor (readT4 h)⟩,
  ⟨0xFFC0, 0x4080, 0x0000, fun h => .tLslReg (readT4 h)⟩,
  ⟨0xFFC0, 0x40C0, 0x0000, fun h => .tLsrReg (readT4 h)⟩,
  ⟨0xFFC0, 0x4100, 0x0000, fun h => .tAsrReg (readT4 h)⟩,
  ⟨0xFFC0, 0x4140, 0x0000, fun h => .tAdc (readT4 h)⟩,
  ⟨0xFFC0, 0x4180, 0x0000, fun h => .tSbc (readT4 h)⟩,
  ⟨0xFFC0, 0x41C0, 0x0000, fun h => .tRorReg (readT4 h)⟩,
  ⟨0xFFC0, 0x4200, 0x0000, fun h => .tTst (readT4 h)⟩,
  ⟨0xFFC0, 0x4240, 0x0000, fun h => .tNeg (readT4 h)⟩,
  ⟨0xFFC0, 0x4280, 0x0000, fun h => .tCmp (readT4 h)⟩,
  ⟨0xFFC0, 0x42C0, 0x0000, fun h => .tCmn (readT4 h)⟩,
  ⟨0xFFC0, 0x4300, 0x0000, fun h => .tOrr (readT4 h)⟩,
  ⟨0xFFC0, 0x4340, 0x0000, fun h => .tMul (readT4 h)⟩]

/-- Rows of the 16-bit table. -/
def thumbRowsPart1 : List ThumbRow := [
  ⟨0xFFC0, 0x4380, 0x0000, fun h => .tBic (readT4 h)⟩,
  ⟨0xFFC0, 0x43C0, 0x0000, fun h => .tMvn (readT4 h)⟩,
  ⟨0xFF00, 0x4400, 0x0000, fun h => .tAddHi (readT5 h)⟩,
  ⟨0xFF00, 0x4500, 0x0000, fun h => .tCmpHi (readT5 h)⟩,
  ⟨0xFF00, 0x4600, 0x0000, fun h => .tMovHi (readT5 h)⟩,
  ⟨0xFF87, 0x4700, 0x0087, fun h => .tBx (readT5Bx h)⟩,
  ⟨0xF800, 0x4800, 0x0000, fun h => .tLdrPc (readT6 h)⟩,
  ⟨0xFE00, 0x5000, 0x0000, fun h => .tStrReg (readT7 h)⟩,
  ⟨0xFE00, 0x5400, 0x0000, fun h => .tStrbReg (readT7 h)⟩,
  ⟨0xFE00, 0x5800, 0x0000, fun h => .tLdrReg (readT7 h)⟩,
  ⟨0xFE00, 0x5C00, 0x0000, fun h => .tLdrbReg (readT7 h)⟩,
  ⟨0xFE00, 0x5200, 0x0000, fun h => .tStrhReg (readT7 h)⟩,
  ⟨0xFE00, 0x5A00, 0x0000, fun h => .tLdrhReg (readT7 h)⟩,
  ⟨0xFE00, 0x5600, 0x0000, fun h => .tLdsb (readT7 h)⟩,
  ⟨0xFE00, 0x5E00, 0x0000, fun h => .tLdsh (readT7 h)⟩,
  ⟨0xF800, 0x6000, 0x0000, fun h => .tStrImm (readT9 h)⟩,
  ⟨0xF800, 0x6800, 0x0000, fun h => .tLdrImm (readT9 h)⟩,
  ⟨0xF800, 0x7000, 0x0000, fun h => .tStrbImm (readT9 h)⟩,
  ⟨0xF800, 0x7800, 0x0000, fun h => .tLdrbImm (readT9 h)⟩,
  ⟨0xF800, 0x8000, 0x0000, fun h => .tStrhImm (readT9 h)⟩,
  ⟨0xF800, 0x8800, 0x0000, fun h => .tLdrhImm (readT9 h)⟩,
  ⟨0xF800, 0x9000, 0x0000, fun h => .tStrSp (readT6 h)⟩,
  ⟨0xF800, 0x9800, 0x0000, fun h => .tLdrSp (readT6 h)⟩,
  ⟨0xF800, 0xA000, 0x0000, fun h => .tAddPc (readT6 h)⟩,
  ⟨0xF800, 0xA800, 0x0000, fun h => .tAddSp (readT6 h)⟩]

/-- Rows of the 16-bit table. -/
def thumbRowsPart2 : List ThumbRow := [
  ⟨0xFF80, 0xB000, 0x0000, fun h => .tAddToSp (readT13 h)⟩,
  ⟨0xFF80, 0xB080, 0x0000, fun h => .tSubFromSp (readT13 h)⟩,
  ⟨0xFE00, 0xB400, 0x0000, fun h => .tPush (readT14 h)⟩,
  ⟨0xFE00, 0xBC00, 0x0000, fun h => .tPop (readT14 h)⟩,
  ⟨0xF800, 0xC000, 0x0000, fun h => .tStmia (readT15 h)⟩,
  ⟨0xF800, 0xC800, 0x0000, fun h => .tLdmia (readT15 h)⟩,
  ⟨0xFF00, 0xD000, 0x0000, fun h => .tBEq (readT16 h)⟩,
  ⟨0xFF00, 0xD100, 0x0000, fun h => .tBNe (readT16 h)⟩,
  ⟨0xFF00, 0xD200, 0x0000, fun h => .tBCs (readT16 h)⟩,
  ⟨0xFF00, 0xD300, 0x0000, fun h => .tBCc (readT16 h)⟩,
  ⟨0xFF00, 0xD400, 0x0000, fun h => .tBMi (readT16 h)⟩,
  ⟨0xFF00, 0xD500, 0x0000, fun h => .tBPl (readT16 h)⟩,
  ⟨0xFF00, 0xD600, 0x0000, fun h => .tBVs (readT16 h)⟩,
  ⟨0xFF00, 0xD700, 0x0000, fun h => .tBVc (readT16 h)⟩,
  ⟨0xFF00, 0xD800, 0x0000, fun h => .tBHi (readT16 h)⟩,
  ⟨0xFF00, 0xD900, 0x0000, fun h => .tBLs (readT16 h)⟩,
  ⟨0xFF00, 0xDA00, 0x0000, fun h => .tBGe (readT16 h)⟩,
  ⟨0xFF00, 0xDB00, 0x0000, fun h => .tBLt (readT16 h)⟩,
  ⟨0xFF00, 0xDC00, 0x0000, fun h => .tBGt (readT16 h)⟩,
  ⟨0xFF00, 0xDD00, 0x0000, fun h => .tBLe (readT16 h)⟩,
  ⟨0xFF00, 0xDF00, 0x0000, fun h => .tSwi (readT16 h)⟩,
  ⟨0xF800, 0xE000, 0x0000, fun h => .tB (readT18 h)⟩,
  ⟨0xF800, 0xF000, 0x0000, fun h => .tBlHi (readT18 h)⟩,
  ⟨0xF800, 0xF800, 0x0000, fun h => .tBlLo (readT18 h)⟩]

/-- The 16-bit table, in the order of spec/opcode_table.json. -/
def thumbRows : List ThumbRow :=
  thumbRowsPart0 ++ thumbRowsPart1 ++ thumbRowsPart2

/-- R102: a row matches a word w when (w AND mask) = match. -/
def armMatches (w : Word) (r : ArmRow) : Bool := w &&& r.mask == r.value

/-- R103: a near match is a match but for the row's should-be bits. -/
def armNear (w : Word) (r : ArmRow) : Bool := w &&& (r.mask &&& ~~~r.should) == r.value &&& ~~~r.should

/-- R130: the same for a halfword. -/
def thumbMatches (h : Half) (r : ThumbRow) : Bool := h &&& r.mask == r.value

/-- R130, R103: the same for a halfword. -/
def thumbNear (h : Half) (r : ThumbRow) : Bool := h &&& (r.mask &&& ~~~r.should) == r.value &&& ~~~r.should

/-- The ARM decode procedure (R102, R103, R128), total on every word. -/
def decodeArm (w : Word) : Decoded :=
  match condOfBits (field w 28 4) with
  | none => .never
  | some c =>
    match armRows.find? (armMatches w) with
    | some r => .instr (r.build c w)
    | none => if armRows.any (armNear w) then .nearMatch (some c) else .undefined (some c)

/-- The Thumb decode procedure (R130, R103), total on every halfword. -/
def decodeThumb (h : Half) : Decoded :=
  match thumbRows.find? (thumbMatches h) with
  | some r => .instr (r.build h)
  | none => if thumbRows.any (thumbNear h) then .nearMatch none else .undefined none

/-- The table is chosen by CPSR.T (R100, spec/40_fetch_decode_dispatch.md R172); in Thumb state the low halfword counts. -/
def decodeWord (thumb : Bool) (w : Word) : Decoded :=
  if thumb then decodeThumb (field w 0 16) else decodeArm w

/-- The little-endian word at the head of a list of bytes (spec/20_memory.md R73). -/
def leWord : List Byte → Option Word
  | b0 :: b1 :: b2 :: b3 :: _ => some (b3 ++ b2 ++ b1 ++ b0 : BitVec 32)
  | _ => none

/-- The little-endian halfword at the head of a list of bytes (spec/20_memory.md R73). -/
def leHalf : List Byte → Option Half
  | b0 :: b1 :: _ => some (b1 ++ b0 : BitVec 16)
  | _ => none

/-- Decoding bytes as memory holds them, total on any bytes; none when they hold no whole instruction. -/
def decodeBytes (thumb : Bool) (bs : List Byte) : Option Decoded :=
  if thumb then (leHalf bs).map decodeThumb else (leWord bs).map decodeArm

/-- The bytes of a number, least significant first. -/
def bytesOf : Nat → Nat → List Byte
  | 0, _ => []
  | k + 1, w => BitVec.ofNat 8 w :: bytesOf k (w / 256)

/-- The instruction the decoder reads from a word numbered as spec/opcode_table.json numbers its bits: a row of 32 bits is an
ARM word, a row of 16 bits a Thumb halfword; the bytes are laid out as memory holds them. -/
def decodeTableWord (nbits w : Nat) : Option Instr :=
  match (if nbits = 32 then decodeBytes false (bytesOf 4 w)
         else if nbits = 16 then decodeBytes true (bytesOf 2 w) else none) with
  | some (.instr i) => some i
  | _ => none

/-! ## The encoder -/

/-- An encoded instruction: an ARM word or a Thumb halfword (R100). -/
inductive Code where
  | arm (w : Word)
  | thumb (h : Half)
deriving DecidableEq, Repr

/-- The encoding of format A1. -/
def encA1 (op : BitVec 4) (f : A1) : BitVec 32 :=
  place 28 (condBits f.cond) ||| place 25 0b001#3 ||| place 21 op ||| place 20 (flagBit f.s) ||| place 16 f.rn ||| place 12 f.rd ||| place 8 f.rot ||| place 0 f.imm8

/-- The encoding of format A1Cmp. -/
def encA1Cmp (op : BitVec 4) (f : A1Cmp) : BitVec 32 :=
  place 28 (condBits f.cond) ||| place 25 0b001#3 ||| place 21 op ||| place 20 0b1#1 ||| place 16 f.rn ||| place 8 f.rot ||| place 0 f.imm8

/-- The encoding of format A1Mov. -/
def encA1Mov (op : BitVec 4) (f : A1Mov) : BitVec 32 :=
  place 28 (condBits f.cond) ||| place 25 0b001#3 ||| place 21 op ||| place 20 (flagBit f.s) ||| place 12 f.rd ||| place 8 f.rot ||| place 0 f.imm8

/-- The encoding of format A2. -/
def encA2 (op : BitVec 4) (f : A2) : BitVec 32 :=
  place 28 (condBits f.cond) ||| place 21 op ||| place 20 (flagBit f.s) ||| place 16 f.rn ||| place 12 f.rd ||| place 7 f.shiftImm ||| place 5 (shiftBits f.shift) ||| place 0 f.rm

/-- The encoding of format A2Cmp. -/
def encA2Cmp (op : BitVec 4) (f : A2Cmp) : BitVec 32 :=
  place 28 (condBits f.cond) ||| place 21 op ||| place 20 0b1#1 ||| place 16 f.rn ||| place 7 f.shiftImm ||| place 5 (shiftBits f.shift) ||| place 0 f.rm

/-- The encoding of format A2Mov. -/
def encA2Mov (op : BitVec 4) (f : A2Mov) : BitVec 32 :=
  place 28 (condBits f.cond) ||| place 21 op ||| place 20 (flagBit f.s) ||| place 12 f.rd ||| place 7 f.shiftImm ||| place 5 (shiftBits f.shift) ||| place 0 f.rm

/-- The encoding of format A3. -/
def encA3 (op : BitVec 4) (f : A3) : BitVec 32 :=
  place 28 (condBits f.cond) ||| place 21 op ||| place 20 (flagBit f.s) ||| place 16 f.rn ||| place 12 f.rd ||| place 8 f.rs ||| place 5 (shiftBits f.shift) ||| place 4 0b1#1 ||| place 0 f.rm

/-- The encoding of format A3Cmp. -/
def encA3Cmp (op : BitVec 4) (f : A3Cmp) : BitVec 32 :=
  place 28 (condBits f.cond) ||| place 21 op ||| place 20 0b1#1 ||| place 16 f.rn ||| place 8 f.rs ||| place 5 (shiftBits f.shift) ||| place 4 0b1#1 ||| place 0 f.rm

/-- The encoding of format A3Mov. -/
def encA3Mov (op : BitVec 4) (f : A3Mov) : BitVec 32 :=
  place 28 (condBits f.cond) ||| place 21 op ||| place 20 (flagBit f.s) ||| place 12 f.rd ||| place 8 f.rs ||| place 5 (shiftBits f.shift) ||| place 4 0b1#1 ||| place 0 f.rm

/-- The encoding of format Mrs. -/
def encMrs (f : Mrs) : BitVec 32 :=
  place 28 (condBits f.cond) ||| place 23 0b00010#5 ||| place 22 (flagBit f.r) ||| place 16 0b1111#4 ||| place 12 f.rd

/-- The encoding of format MsrImm. -/
def encMsrImm (f : MsrImm) : BitVec 32 :=
  place 28 (condBits f.cond) ||| place 23 0b00110#5 ||| place 22 (flagBit f.r) ||| place 20 0b10#2 ||| place 16 f.mask ||| place 12 0b1111#4 ||| place 8 f.rot ||| place 0 f.imm8

/-- The encoding of format MsrReg. -/
def encMsrReg (f : MsrReg) : BitVec 32 :=
  place 28 (condBits f.cond) ||| place 23 0b00010#5 ||| place 22 (flagBit f.r) ||| place 20 0b10#2 ||| place 16 f.mask ||| place 12 0b1111#4 ||| place 0 f.rm

/-- The encoding of format Bx. -/
def encBx (f : Bx) : BitVec 32 :=
  place 28 (condBits f.cond) ||| place 24 0b0001#4 ||| place 20 0b0010#4 ||| place 16 0b1111#4 ||| place 12 0b1111#4 ||| place 8 0b1111#4 ||| place 4 0b0001#4 ||| place 0 f.rm

/-- The encoding of format Mul. -/
def encMul (f : Mul) : BitVec 32 :=
  place 28 (condBits f.cond) ||| place 20 (flagBit f.s) ||| place 16 f.rd ||| place 8 f.rs ||| place 4 0b1001#4 ||| place 0 f.rm

/-- The encoding of format Mla. -/
def encMla (f : Mla) : BitVec 32 :=
  place 28 (condBits f.cond) ||| place 21 0b1#1 ||| place 20 (flagBit f.s) ||| place 16 f.rd ||| place 12 f.rn ||| place 8 f.rs ||| place 4 0b1001#4 ||| place 0 f.rm

/-- The encoding of format Mull. -/
def encMull (ua : BitVec 2) (f : Mull) : BitVec 32 :=
  place 28 (condBits f.cond) ||| place 23 0b00001#5 ||| place 21 ua ||| place 20 (flagBit f.s) ||| place 16 f.rdHi ||| place 12 f.rdLo ||| place 8 f.rs ||| place 4 0b1001#4 ||| place 0 f.rm

/-- The encoding of format Swp. -/
def encSwp (b : BitVec 1) (f : Swp) : BitVec 32 :=
  place 28 (condBits f.cond) ||| place 23 0b00010#5 ||| place 22 b ||| place 16 f.rn ||| place 12 f.rd ||| place 4 0b1001#4 ||| place 0 f.rm

/-- The encoding of format HwReg. -/
def encHwReg (l : BitVec 1) (sh : BitVec 2) (f : HwReg) : BitVec 32 :=
  place 28 (condBits f.cond) ||| place 24 (flagBit f.p) ||| place 23 (flagBit f.u) ||| place 21 (flagBit f.w) ||| place 20 l ||| place 16 f.rn ||| place 12 f.rd ||| place 7 0b1#1 ||| place 5 sh ||| place 4 0b1#1 ||| place 0 f.rm

/-- The encoding of format HwImm. -/
def encHwImm (l : BitVec 1) (sh : BitVec 2) (f : HwImm) : BitVec 32 :=
  place 28 (condBits f.cond) ||| place 24 (flagBit f.p) ||| place 23 (flagBit f.u) ||| place 22 0b1#1 ||| place 21 (flagBit f.w) ||| place 20 l ||| place 16 f.rn ||| place 12 f.rd ||| place 8 f.immHi ||| place 7 0b1#1 ||| place 5 sh ||| place 4 0b1#1 ||| place 0 f.immLo

/-- The encoding of format LsImmPre. -/
def encLsImmPre (b : BitVec 1) (l : BitVec 1) (f : LsImmPre) : BitVec 32 :=
  place 28 (condBits f.cond) ||| place 25 0b010#3 ||| place 24 0b1#1 ||| place 23 (flagBit f.u) ||| place 22 b ||| place 21 (flagBit f.w) ||| place 20 l ||| place 16 f.rn ||| place 12 f.rd ||| place 0 f.off12

/-- The encoding of format LsImmPost. -/
def encLsImmPost (b : BitVec 1) (t : BitVec 1) (l : BitVec 1) (f : LsImmPost) : BitVec 32 :=
  place 28 (condBits f.cond) ||| place 25 0b010#3 ||| place 23 (flagBit f.u) ||| place 22 b ||| place 21 t ||| place 20 l ||| place 16 f.rn ||| place 12 f.rd ||| place 0 f.off12

/-- The encoding of format LsRegPre. -/
def encLsRegPre (b : BitVec 1) (l : BitVec 1) (f : LsRegPre) : BitVec 32 :=
  place 28 (condBits f.cond) ||| place 25 0b011#3 ||| place 24 0b1#1 ||| place 23 (flagBit f.u) ||| place 22 b ||| place 21 (flagBit f.w) ||| place 20 l ||| place 16 f.rn ||| place 12 f.rd ||| place 7 f.shiftImm ||| place 5 (shiftBits f.shift) ||| place 0 f.rm

/-- The encoding of format LsRegPost. -/
def encLsRegPost (b : BitVec 1) (t : BitVec 1) (l : BitVec 1) (f : LsRegPost) : BitVec 32 :=
  place 28 (condBits f.cond) ||| place 25 0b011#3 ||| place 23 (flagBit f.u) ||| place 22 b ||| place 21 t ||| place 20 l ||| place 16 f.rn ||| place 12 f.rd ||| place 7 f.shiftImm ||| place 5 (shiftBits f.shift) ||| place 0 f.rm

/-- The encoding of format UndefSpace. -/
def encUndefSpace (f : UndefSpace) : BitVec 32 :=
  place 28 (condBits f.cond) ||| place 25 0b011#3 ||| place 5 f.hi ||| place 4 0b1#1 ||| place 0 f.lo

/-- The encoding of format Block. -/
def encBlock (s : BitVec 1) (l : BitVec 1) (f : Block) : BitVec 32 :=
  place 28 (condBits f.cond) ||| place 25 0b100#3 ||| place 24 (flagBit f.p) ||| place 23 (flagBit f.u) ||| place 22 s ||| place 21 (flagBit f.w) ||| place 20 l ||| place 16 f.rn ||| place 0 f.list

/-- The encoding of format BlockUser. -/
def encBlockUser (pc : BitVec 1) (f : BlockUser) : BitVec 32 :=
  place 28 (condBits f.cond) ||| place 25 0b100#3 ||| place 24 (flagBit f.p) ||| place 23 (flagBit f.u) ||| place 22 0b1#1 ||| place 21 (flagBit f.w) ||| place 20 0b1#1 ||| place 16 f.rn ||| place 15 pc ||| place 0 f.list

/-- The encoding of format Branch. -/
def encBranch (l : BitVec 1) (f : Branch) : BitVec 32 :=
  place 28 (condBits f.cond) ||| place 25 0b101#3 ||| place 24 l ||| place 0 f.imm24

/-- The encoding of format CpLs. -/
def encCpLs (l : BitVec 1) (f : CpLs) : BitVec 32 :=
  place 28 (condBits f.cond) ||| place 25 0b110#3 ||| place 24 (flagBit f.p) ||| place 23 (flagBit f.u) ||| place 22 (flagBit f.n) ||| place 21 (flagBit f.w) ||| place 20 l ||| place 16 f.rn ||| place 12 f.crd ||| place 8 f.cp ||| place 0 f.off8

/-- The encoding of format CpDp. -/
def encCpDp (f : CpDp) : BitVec 32 :=
  place 28 (condBits f.cond) ||| place 24 0b1110#4 ||| place 20 f.op1 ||| place 16 f.crn ||| place 12 f.crd ||| place 8 f.cp ||| place 5 f.op2 ||| place 0 f.crm

/-- The encoding of format CpRt. -/
def encCpRt (l : BitVec 1) (f : CpRt) : BitVec 32 :=
  place 28 (condBits f.cond) ||| place 24 0b1110#4 ||| place 21 f.op1 ||| place 20 l ||| place 16 f.crn ||| place 12 f.rd ||| place 8 f.cp ||| place 5 f.op2 ||| place 4 0b1#1 ||| place 0 f.crm

/-- The encoding of format Swi. -/
def encSwi (f : Swi) : BitVec 32 :=
  place 28 (condBits f.cond) ||| place 24 0b1111#4 ||| place 0 f.imm24

/-- The encoding of format T1. -/
def encT1 (op : BitVec 2) (f : T1) : BitVec 16 :=
  place 11 op ||| place 6 f.off5 ||| place 3 f.rs ||| place 0 f.rd

/-- The encoding of format T2Reg. -/
def encT2Reg (op : BitVec 1) (f : T2Reg) : BitVec 16 :=
  place 11 0b00011#5 ||| place 9 op ||| place 6 f.rn ||| place 3 f.rs ||| place 0 f.rd

/-- The encoding of format T2Imm. -/
def encT2Imm (op : BitVec 1) (f : T2Imm) : BitVec 16 :=
  place 11 0b00011#5 ||| place 10 0b1#1 ||| place 9 op ||| place 6 f.imm3 ||| place 3 f.rs ||| place 0 f.rd

/-- The encoding of format T3. -/
def encT3 (op : BitVec 2) (f : T3) : BitVec 16 :=
  place 13 0b001#3 ||| place 11 op ||| place 8 f.rd ||| place 0 f.imm8

/-- The encoding of format T4. -/
def encT4 (op : BitVec 4) (f : T4) : BitVec 16 :=
  place 10 0b010000#6 ||| place 6 op ||| place 3 f.rs ||| place 0 f.rd

/-- The encoding of format T5. -/
def encT5 (op : BitVec 2) (f : T5) : BitVec 16 :=
  place 10 0b010001#6 ||| place 8 op ||| place 7 (flagBit f.h1) ||| place 6 (flagBit f.h2) ||| place 3 f.rs ||| place 0 f.rd

/-- The encoding of format T5Bx. -/
def encT5Bx (f : T5Bx) : BitVec 16 :=
  place 10 0b010001#6 ||| place 8 0b11#2 ||| place 6 (flagBit f.h2) ||| place 3 f.rs

/-- The encoding of format T6. -/
def encT6 (op : BitVec 5) (f : T6) : BitVec 16 :=
  place 11 op ||| place 8 f.rd ||| place 0 f.word8

/-- The encoding of format T7. -/
def encT7 (op : BitVec 3) (f : T7) : BitVec 16 :=
  place 12 0b0101#4 ||| place 9 op ||| place 6 f.ro ||| place 3 f.rb ||| place 0 f.rd

/-- The encoding of format T9. -/
def encT9 (op : BitVec 5) (f : T9) : BitVec 16 :=
  place 11 op ||| place 6 f.off5 ||| place 3 f.rb ||| place 0 f.rd

/-- The encoding of format T13. -/
def encT13 (s : BitVec 1) (f : T13) : BitVec 16 :=
  place 8 0b10110000#8 ||| place 7 s ||| place 0 f.sword7

/-- The encoding of format T14. -/
def encT14 (l : BitVec 1) (f : T14) : BitVec 16 :=
  place 12 0b1011#4 ||| place 11 l ||| place 9 0b10#2 ||| place 8 (flagBit f.r) ||| place 0 f.list

/-- The encoding of format T15. -/
def encT15 (l : BitVec 1) (f : T15) : BitVec 16 :=
  place 12 0b1100#4 ||| place 11 l ||| place 8 f.rb ||| place 0 f.list

/-- The encoding of format T16. -/
def encT16 (c : BitVec 4) (f : T16) : BitVec 16 :=
  place 12 0b1101#4 ||| place 8 c ||| place 0 f.off8

/-- The encoding of format T18. -/
def encT18 (op : BitVec 5) (f : T18) : BitVec 16 :=
  place 11 op ||| place 0 f.off11

/-- The word or halfword of an instruction, from the patterns of R105 to R149. -/
def encode : Instr → Code
  | .andA1 f => .arm (encA1 0b0000#4 f)
  | .andA2 f => .arm (encA2 0b0000#4 f)
  | .andA3 f => .arm (encA3 0b0000#4 f)
  | .eorA1 f => .arm (encA1 0b0001#4 f)
  | .eorA2 f => .arm (encA2 0b0001#4 f)
  | .eorA3 f => .arm (encA3 0b0001#4 f)
  | .subA1 f => .arm (encA1 0b0010#4 f)
  | .subA2 f => .arm (encA2 0b0010#4 f)
  | .subA3 f => .arm (encA3 0b0010#4 f)
  | .rsbA1 f => .arm (encA1 0b0011#4 f)
  | .rsbA2 f => .arm (encA2 0b0011#4 f)
  | .rsbA3 f => .arm (encA3 0b0011#4 f)
  | .addA1 f => .arm (encA1 0b0100#4 f)
  | .addA2 f => .arm (encA2 0b0100#4 f)
  | .addA3 f => .arm (encA3 0b0100#4 f)
  | .adcA1 f => .arm (encA1 0b0101#4 f)
  | .adcA2 f => .arm (encA2 0b0101#4 f)
  | .adcA3 f => .arm (encA3 0b0101#4 f)
  | .sbcA1 f => .arm (encA1 0b0110#4 f)
  | .sbcA2 f => .arm (encA2 0b0110#4 f)
  | .sbcA3 f => .arm (encA3 0b0110#4 f)
  | .rscA1 f => .arm (encA1 0b0111#4 f)
  | .rscA2 f => .arm (encA2 0b0111#4 f)
  | .rscA3 f => .arm (encA3 0b0111#4 f)
  | .tstA1 f => .arm (encA1Cmp 0b1000#4 f)
  | .tstA2 f => .arm (encA2Cmp 0b1000#4 f)
  | .tstA3 f => .arm (encA3Cmp 0b1000#4 f)
  | .teqA1 f => .arm (encA1Cmp 0b1001#4 f)
  | .teqA2 f => .arm (encA2Cmp 0b1001#4 f)
  | .teqA3 f => .arm (encA3Cmp 0b1001#4 f)
  | .cmpA1 f => .arm (encA1Cmp 0b1010#4 f)
  | .cmpA2 f => .arm (encA2Cmp 0b1010#4 f)
  | .cmpA3 f => .arm (encA3Cmp 0b1010#4 f)
  | .cmnA1 f => .arm (encA1Cmp 0b1011#4 f)
  | .cmnA2 f => .arm (encA2Cmp 0b1011#4 f)
  | .cmnA3 f => .arm (encA3Cmp 0b1011#4 f)
  | .orrA1 f => .arm (encA1 0b1100#4 f)
  | .orrA2 f => .arm (encA2 0b1100#4 f)
  | .orrA3 f => .arm (encA3 0b1100#4 f)
  | .movA1 f => .arm (encA1Mov 0b1101#4 f)
  | .movA2 f => .arm (encA2Mov 0b1101#4 f)
  | .movA3 f => .arm (encA3Mov 0b1101#4 f)
  | .bicA1 f => .arm (encA1 0b1110#4 f)
  | .bicA2 f => .arm (encA2 0b1110#4 f)
  | .bicA3 f => .arm (encA3 0b1110#4 f)
  | .mvnA1 f => .arm (encA1Mov 0b1111#4 f)
  | .mvnA2 f => .arm (encA2Mov 0b1111#4 f)
  | .mvnA3 f => .arm (encA3Mov 0b1111#4 f)
  | .mrs f => .arm (encMrs f)
  | .msrImm f => .arm (encMsrImm f)
  | .msrReg f => .arm (encMsrReg f)
  | .bx f => .arm (encBx f)
  | .mul f => .arm (encMul f)
  | .mla f => .arm (encMla f)
  | .umull f => .arm (encMull 0b00#2 f)
  | .umlal f => .arm (encMull 0b01#2 f)
  | .smull f => .arm (encMull 0b10#2 f)
  | .smlal f => .arm (encMull 0b11#2 f)
  | .swp f => .arm (encSwp 0b0#1 f)
  | .swpb f => .arm (encSwp 0b1#1 f)
  | .strhReg f => .arm (encHwReg 0b0#1 0b01#2 f)
  | .strhImm f => .arm (encHwImm 0b0#1 0b01#2 f)
  | .ldrhReg f => .arm (encHwReg 0b1#1 0b01#2 f)
  | .ldrhImm f => .arm (encHwImm 0b1#1 0b01#2 f)
  | .ldrsbReg f => .arm (encHwReg 0b1#1 0b10#2 f)
  | .ldrsbImm f => .arm (encHwImm 0b1#1 0b10#2 f)
  | .ldrshReg f => .arm (encHwReg 0b1#1 0b11#2 f)
  | .ldrshImm f => .arm (encHwImm 0b1#1 0b11#2 f)
  | .ldrImmPre f => .arm (encLsImmPre 0b0#1 0b1#1 f)
  | .ldrImmPost f => .arm (encLsImmPost 0b0#1 0b0#1 0b1#1 f)
  | .ldrtImm f => .arm (encLsImmPost 0b0#1 0b1#1 0b1#1 f)
  | .ldrRegPre f => .arm (encLsRegPre 0b0#1 0b1#1 f)
  | .ldrRegPost f => .arm (encLsRegPost 0b0#1 0b0#1 0b1#1 f)
  | .ldrtReg f => .arm (encLsRegPost 0b0#1 0b1#1 0b1#1 f)
  | .ldrbImmPre f => .arm (encLsImmPre 0b1#1 0b1#1 f)
  | .ldrbImmPost f => .arm (encLsImmPost 0b1#1 0b0#1 0b1#1 f)
  | .ldrbtImm f => .arm (encLsImmPost 0b1#1 0b1#1 0b1#1 f)
  | .ldrbRegPre f => .arm (encLsRegPre 0b1#1 0b1#1 f)
  | .ldrbRegPost f => .arm (encLsRegPost 0b1#1 0b0#1 0b1#1 f)
  | .ldrbtReg f => .arm (encLsRegPost 0b1#1 0b1#1 0b1#1 f)
  | .strImmPre f => .arm (encLsImmPre 0b0#1 0b0#1 f)
  | .strImmPost f => .arm (encLsImmPost 0b0#1 0b0#1 0b0#1 f)
  | .strtImm f => .arm (encLsImmPost 0b0#1 0b1#1 0b0#1 f)
  | .strRegPre f => .arm (encLsRegPre 0b0#1 0b0#1 f)
  | .strRegPost f => .arm (encLsRegPost 0b0#1 0b0#1 0b0#1 f)
  | .strtReg f => .arm (encLsRegPost 0b0#1 0b1#1 0b0#1 f)
  | .strbImmPre f => .arm (encLsImmPre 0b1#1 0b0#1 f)
  | .strbImmPost f => .arm (encLsImmPost 0b1#1 0b0#1 0b0#1 f)
  | .strbtImm f => .arm (encLsImmPost 0b1#1 0b1#1 0b0#1 f)
  | .strbRegPre f => .arm (encLsRegPre 0b1#1 0b0#1 f)
  | .strbRegPost f => .arm (encLsRegPost 0b1#1 0b0#1 0b0#1 f)
  | .strbtReg f => .arm (encLsRegPost 0b1#1 0b1#1 0b0#1 f)
  | .undefined f => .arm (encUndefSpace f)
  | .ldm1 f => .arm (encBlock 0b0#1 0b1#1 f)
  | .ldm2 f => .arm (encBlockUser 0b0#1 f)
  | .ldm3 f => .arm (encBlockUser 0b1#1 f)
  | .stm1 f => .arm (encBlock 0b0#1 0b0#1 f)
  | .stm2 f => .arm (encBlock 0b1#1 0b0#1 f)
  | .b f => .arm (encBranch 0b0#1 f)
  | .bl f => .arm (encBranch 0b1#1 f)
  | .ldc f => .arm (encCpLs 0b1#1 f)
  | .stc f => .arm (encCpLs 0b0#1 f)
  | .cdp f => .arm (encCpDp f)
  | .mrc f => .arm (encCpRt 0b1#1 f)
  | .mcr f => .arm (encCpRt 0b0#1 f)
  | .swi f => .arm (encSwi f)
  | .tLslImm f => .thumb (encT1 0b00#2 f)
  | .tLsrImm f => .thumb (encT1 0b01#2 f)
  | .tAsrImm f => .thumb (encT1 0b10#2 f)
  | .tAddReg f => .thumb (encT2Reg 0b0#1 f)
  | .tSubReg f => .thumb (encT2Reg 0b1#1 f)
  | .tAddImm3 f => .thumb (encT2Imm 0b0#1 f)
  | .tSubImm3 f => .thumb (encT2Imm 0b1#1 f)
  | .tMovImm f => .thumb (encT3 0b00#2 f)
  | .tCmpImm f => .thumb (encT3 0b01#2 f)
  | .tAddImm8 f => .thumb (encT3 0b10#2 f)
  | .tSubImm8 f => .thumb (encT3 0b11#2 f)
  | .tAnd f => .thumb (encT4 0b0000#4 f)
  | .tEor f => .thumb (encT4 0b0001#4 f)
  | .tLslReg f => .thumb (encT4 0b0010#4 f)
  | .tLsrReg f => .thumb (encT4 0b0011#4 f)
  | .tAsrReg f => .thumb (encT4 0b0100#4 f)
  | .tAdc f => .thumb (encT4 0b0101#4 f)
  | .tSbc f => .thumb (encT4 0b0110#4 f)
  | .tRorReg f => .thumb (encT4 0b0111#4 f)
  | .tTst f => .thumb (encT4 0b1000#4 f)
  | .tNeg f => .thumb (encT4 0b1001#4 f)
  | .tCmp f => .thumb (encT4 0b1010#4 f)
  | .tCmn f => .thumb (encT4 0b1011#4 f)
  | .tOrr f => .thumb (encT4 0b1100#4 f)
  | .tMul f => .thumb (encT4 0b1101#4 f)
  | .tBic f => .thumb (encT4 0b1110#4 f)
  | .tMvn f => .thumb (encT4 0b1111#4 f)
  | .tAddHi f => .thumb (encT5 0b00#2 f)
  | .tCmpHi f => .thumb (encT5 0b01#2 f)
  | .tMovHi f => .thumb (encT5 0b10#2 f)
  | .tBx f => .thumb (encT5Bx f)
  | .tLdrPc f => .thumb (encT6 0b01001#5 f)
  | .tStrReg f => .thumb (encT7 0b000#3 f)
  | .tStrbReg f => .thumb (encT7 0b010#3 f)
  | .tLdrReg f => .thumb (encT7 0b100#3 f)
  | .tLdrbReg f => .thumb (encT7 0b110#3 f)
  | .tStrhReg f => .thumb (encT7 0b001#3 f)
  | .tLdrhReg f => .thumb (encT7 0b101#3 f)
  | .tLdsb f => .thumb (encT7 0b011#3 f)
  | .tLdsh f => .thumb (encT7 0b111#3 f)
  | .tStrImm f => .thumb (encT9 0b01100#5 f)
  | .tLdrImm f => .thumb (encT9 0b01101#5 f)
  | .tStrbImm f => .thumb (encT9 0b01110#5 f)
  | .tLdrbImm f => .thumb (encT9 0b01111#5 f)
  | .tStrhImm f => .thumb (encT9 0b10000#5 f)
  | .tLdrhImm f => .thumb (encT9 0b10001#5 f)
  | .tStrSp f => .thumb (encT6 0b10010#5 f)
  | .tLdrSp f => .thumb (encT6 0b10011#5 f)
  | .tAddPc f => .thumb (encT6 0b10100#5 f)
  | .tAddSp f => .thumb (encT6 0b10101#5 f)
  | .tAddToSp f => .thumb (encT13 0b0#1 f)
  | .tSubFromSp f => .thumb (encT13 0b1#1 f)
  | .tPush f => .thumb (encT14 0b0#1 f)
  | .tPop f => .thumb (encT14 0b1#1 f)
  | .tStmia f => .thumb (encT15 0b0#1 f)
  | .tLdmia f => .thumb (encT15 0b1#1 f)
  | .tBEq f => .thumb (encT16 0b0000#4 f)
  | .tBNe f => .thumb (encT16 0b0001#4 f)
  | .tBCs f => .thumb (encT16 0b0010#4 f)
  | .tBCc f => .thumb (encT16 0b0011#4 f)
  | .tBMi f => .thumb (encT16 0b0100#4 f)
  | .tBPl f => .thumb (encT16 0b0101#4 f)
  | .tBVs f => .thumb (encT16 0b0110#4 f)
  | .tBVc f => .thumb (encT16 0b0111#4 f)
  | .tBHi f => .thumb (encT16 0b1000#4 f)
  | .tBLs f => .thumb (encT16 0b1001#4 f)
  | .tBGe f => .thumb (encT16 0b1010#4 f)
  | .tBLt f => .thumb (encT16 0b1011#4 f)
  | .tBGt f => .thumb (encT16 0b1100#4 f)
  | .tBLe f => .thumb (encT16 0b1101#4 f)
  | .tSwi f => .thumb (encT16 0b1111#4 f)
  | .tB f => .thumb (encT18 0b11100#5 f)
  | .tBlHi f => .thumb (encT18 0b11110#5 f)
  | .tBlLo f => .thumb (encT18 0b11111#5 f)

/-- The bytes of an encoded instruction as memory holds them (spec/20_memory.md R73). -/
def codeBytes : Code → List Byte
  | .arm w => bytesOf 4 w.toNat
  | .thumb h => bytesOf 2 h.toNat

/-- What the decoder answers for an encoded instruction. -/
def decodeCode : Code → Decoded
  | .arm w => decodeArm w
  | .thumb h => decodeThumb h

end Sys2Proof
end

