-- ==== Sys2Proof/Machine/Coprocessor.lean ====
section
/-! DEFINITION. The coprocessor instructions (spec/47_arm_coprocessor_swi_undefined.md R320 to R331). A handler gets the
whole instruction word, which the fields of the instruction determine. -/

namespace Sys2Proof.Machine

/-- CDP (R324). -/
def execCdp (f : CpDp) (s : State) : Out :=
  guarded f.cond none (fun s =>
    withHandler f.cp (.cdp (encCpDp f)) (fun a => advance (charges a.state.params.cycles.cdp a.state)) s) s

/-- MRC (R327): with Rd = 15 the flags are written and the pc is not. -/
def execMrc (f : CpRt) (s : State) : Out :=
  guarded f.cond none (fun s =>
    withHandler f.cp (.mrc (encCpRt 1#1 f)) (fun a =>
      let s1 := charges a.state.params.cycles.mrc a.state
      if f.rd = 15#4 then advance (flagsOfWord a.value s1) else advance (writeReg s1 f.rd a.value)) s) s

/-- MCR (R328): Rd = 15 gives pc + STORE_PC_OFFSET. -/
def execMcr (f : CpRt) (s : State) : Out :=
  guarded f.cond none (fun s =>
    withHandler f.cp (.mcr (encCpRt 0#1 f) (storeValue s f.rd)) (fun a =>
      advance (charges a.state.params.cycles.mcr a.state)) s) s

/-- The words of an LDC given to the handler, `k` being the number of the first. -/
def giveWords (cp : BitVec 4) (instr : Word) : Nat → List Word → State → State
  | _, [], s => s
  | k, w :: ws, s => giveWords cp instr (k + 1) ws (callData cp (.ldcData instr k w) s).2

/-- The cycles of LDC and STC (R330, spec/70_reset_and_hazards.md R540). -/
def transferCycles (s : State) : State := charges s.params.cycles.coprocTransfer s

/-- LDC (R325): the forms without a meaning are refused once the handler has answered (log 18). -/
def execLdc (f : CpLs) (s : State) : Out :=
  guarded f.cond none (fun s =>
    withHandler f.cp (.ldc (encCpLs 1#1 f)) (fun a =>
      checked f.check (fun s1 =>
        match readWords a.words .n (addrCp f s1).addr s1 with
        | .abort s2 => raise .dataAbort s2
        | .ok ws s2 =>
          advance (giveWords f.cp (encCpLs 1#1 f) 0 ws (writeBack (wbOf f.w f.rn (addrCp f s1)) (transferCycles s2)))) a.state) s) s

/-- The words of an STC: each is asked of the handler just before it is stored (R326). `n` words are left, `k` being the
number of the first. -/
def storeHandlerWords (cp : BitVec 4) (instr : Word) : Nat → Nat → Cls → Word → State → Acc Unit
  | 0, _, _, _, s => .ok () s
  | n + 1, k, c, a, s =>
    let d := callData cp (.stcData instr k) s
    match memWrite c .word a d.1 d.2 with
    | .abort s1 => .abort s1
    | .ok _ s1 => storeHandlerWords cp instr n (k + 1) .s (a + 4#32) s1

/-- STC (R326). -/
def execStc (f : CpLs) (s : State) : Out :=
  guarded f.cond none (fun s =>
    withHandler f.cp (.stc (encCpLs 0#1 f)) (fun a =>
      checked f.check (fun s1 =>
        match storeHandlerWords f.cp (encCpLs 0#1 f) a.words 0 .n (addrCp f s1).addr s1 with
        | .abort s2 => raise .dataAbort s2
        | .ok _ s2 => advance (writeBack (wbOf f.w f.rn (addrCp f s1)) (transferCycles s2))) a.state) s) s

end Sys2Proof.Machine
end

