-- ==== Sys2Proof/Machine/DataProcessing.lean ====
section
/-! DEFINITION. The sixteen data-processing operations in formats A1, A2, A3 (spec/42_arm_data_processing.md R230 to R246). -/

namespace Sys2Proof.Machine

/-- The end of an operation with a destination (R230): r15 is a pc write, with S = 1 the exception return
(spec/41_shifter_alu_flags.md R210). -/
def writeResult (sBit : Bool) (rd : RegNum) (r : AluOut) (s : State) : Out :=
  if rd = 15#4 then (if sBit then exceptionReturn r.value s else jump r.value s)
  else
    let s1 := writeReg s rd r.value
    advance (if sBit then setFlags r s1 else s1)

/-- The second operand of format A1. -/
def operandA1 (rot : BitVec 4) (imm8 : BitVec 8) (s : State) : Shifted := shifterImm rot imm8 s.cpsr.c

/-- The second operand of format A2. -/
def operandA2 (ty : ShiftType) (n : BitVec 5) (rm : RegNum) (s : State) : Shifted :=
  shiftImm ty n.toNat (readReg s rm) s.cpsr.c

/-- The second operand of format A3. -/
def operandA3 (ty : ShiftType) (rs rm : RegNum) (s : State) : Shifted :=
  shiftReg ty (shiftAmount s rs) (readReg s rm) s.cpsr.c

/-- The result of an operation on the state an instruction starts in. -/
def aluResult (op : AluOp) (a : Word) (b : Shifted) (s : State) : AluOut := alu op a b.value b.carry s.cpsr

/-- The cycles of data processing with an immediate or an immediate shift (spec/70_reset_and_hazards.md R540). -/
def immCycles (s : State) : State := charges s.params.cycles.dataImm s

/-- The cycles of data processing with a register-specified shift (R230, spec/70_reset_and_hazards.md R540). -/
def shiftCycles (s : State) : State := charges s.params.cycles.dataReg s

/-- Format A1 with two operands. -/
def dataA1 (op : AluOp) (f : A1) : State → Out :=
  guarded f.cond none fun s =>
    writeResult f.s f.rd (aluResult op (readReg s f.rn) (operandA1 f.rot f.imm8 s) s) (immCycles s)

/-- Format A2 with two operands. -/
def dataA2 (op : AluOp) (f : A2) : State → Out :=
  guarded f.cond none fun s =>
    writeResult f.s f.rd (aluResult op (readReg s f.rn) (operandA2 f.shift f.shiftImm f.rm s) s) (immCycles s)

/-- Format A3 with two operands. -/
def dataA3 (op : AluOp) (f : A3) : State → Out :=
  guarded f.cond f.check fun s =>
    writeResult f.s f.rd (aluResult op (readReg s f.rn) (operandA3 f.shift f.rs f.rm s) s) (shiftCycles s)

/-- Format A1 of MOV and MVN: Rn is not read. -/
def moveA1 (op : AluOp) (f : A1Mov) : State → Out :=
  guarded f.cond none fun s => writeResult f.s f.rd (aluResult op 0#32 (operandA1 f.rot f.imm8 s) s) (immCycles s)

/-- Format A2 of MOV and MVN. -/
def moveA2 (op : AluOp) (f : A2Mov) : State → Out :=
  guarded f.cond none fun s => writeResult f.s f.rd (aluResult op 0#32 (operandA2 f.shift f.shiftImm f.rm s) s) (immCycles s)

/-- Format A3 of MOV and MVN. -/
def moveA3 (op : AluOp) (f : A3Mov) : State → Out :=
  guarded f.cond f.check fun s =>
    writeResult f.s f.rd (aluResult op 0#32 (operandA3 f.shift f.rs f.rm s) s) (shiftCycles s)

/-- Format A1 of the compares: the flags are always set and no register is written. -/
def compareA1 (op : AluOp) (f : A1Cmp) : State → Out :=
  guarded f.cond none fun s =>
    advance (setFlags (aluResult op (readReg s f.rn) (operandA1 f.rot f.imm8 s) s) (immCycles s))

/-- Format A2 of the compares. -/
def compareA2 (op : AluOp) (f : A2Cmp) : State → Out :=
  guarded f.cond none fun s =>
    advance (setFlags (aluResult op (readReg s f.rn) (operandA2 f.shift f.shiftImm f.rm s) s) (immCycles s))

/-- Format A3 of the compares. -/
def compareA3 (op : AluOp) (f : A3Cmp) : State → Out :=
  guarded f.cond f.check fun s =>
    advance (setFlags (aluResult op (readReg s f.rn) (operandA3 f.shift f.rs f.rm s) s) (shiftCycles s))

/-- AND, format A1 (R231). -/
def execAndA1 (f : A1) (s : State) : Out := dataA1 .and f s

/-- AND, format A2 (R231). -/
def execAndA2 (f : A2) (s : State) : Out := dataA2 .and f s

/-- AND, format A3 (R231). -/
def execAndA3 (f : A3) (s : State) : Out := dataA3 .and f s

/-- EOR, format A1 (R232). -/
def execEorA1 (f : A1) (s : State) : Out := dataA1 .eor f s

/-- EOR, format A2 (R232). -/
def execEorA2 (f : A2) (s : State) : Out := dataA2 .eor f s

/-- EOR, format A3 (R232). -/
def execEorA3 (f : A3) (s : State) : Out := dataA3 .eor f s

/-- SUB, format A1 (R233). -/
def execSubA1 (f : A1) (s : State) : Out := dataA1 .sub f s

/-- SUB, format A2 (R233). -/
def execSubA2 (f : A2) (s : State) : Out := dataA2 .sub f s

/-- SUB, format A3 (R233). -/
def execSubA3 (f : A3) (s : State) : Out := dataA3 .sub f s

/-- RSB, format A1 (R234). -/
def execRsbA1 (f : A1) (s : State) : Out := dataA1 .rsb f s

/-- RSB, format A2 (R234). -/
def execRsbA2 (f : A2) (s : State) : Out := dataA2 .rsb f s

/-- RSB, format A3 (R234). -/
def execRsbA3 (f : A3) (s : State) : Out := dataA3 .rsb f s

/-- ADD, format A1 (R235). -/
def execAddA1 (f : A1) (s : State) : Out := dataA1 .add f s

/-- ADD, format A2 (R235). -/
def execAddA2 (f : A2) (s : State) : Out := dataA2 .add f s

/-- ADD, format A3 (R235). -/
def execAddA3 (f : A3) (s : State) : Out := dataA3 .add f s

/-- ADC, format A1 (R236). -/
def execAdcA1 (f : A1) (s : State) : Out := dataA1 .adc f s

/-- ADC, format A2 (R236). -/
def execAdcA2 (f : A2) (s : State) : Out := dataA2 .adc f s

/-- ADC, format A3 (R236). -/
def execAdcA3 (f : A3) (s : State) : Out := dataA3 .adc f s

/-- SBC, format A1 (R237). -/
def execSbcA1 (f : A1) (s : State) : Out := dataA1 .sbc f s

/-- SBC, format A2 (R237). -/
def execSbcA2 (f : A2) (s : State) : Out := dataA2 .sbc f s

/-- SBC, format A3 (R237). -/
def execSbcA3 (f : A3) (s : State) : Out := dataA3 .sbc f s

/-- RSC, format A1 (R238). -/
def execRscA1 (f : A1) (s : State) : Out := dataA1 .rsc f s

/-- RSC, format A2 (R238). -/
def execRscA2 (f : A2) (s : State) : Out := dataA2 .rsc f s

/-- RSC, format A3 (R238). -/
def execRscA3 (f : A3) (s : State) : Out := dataA3 .rsc f s

/-- TST, format A1 (R239). -/
def execTstA1 (f : A1Cmp) (s : State) : Out := compareA1 .tst f s

/-- TST, format A2 (R239). -/
def execTstA2 (f : A2Cmp) (s : State) : Out := compareA2 .tst f s

/-- TST, format A3 (R239). -/
def execTstA3 (f : A3Cmp) (s : State) : Out := compareA3 .tst f s

/-- TEQ, format A1 (R240). -/
def execTeqA1 (f : A1Cmp) (s : State) : Out := compareA1 .teq f s

/-- TEQ, format A2 (R240). -/
def execTeqA2 (f : A2Cmp) (s : State) : Out := compareA2 .teq f s

/-- TEQ, format A3 (R240). -/
def execTeqA3 (f : A3Cmp) (s : State) : Out := compareA3 .teq f s

/-- CMP, format A1 (R241). -/
def execCmpA1 (f : A1Cmp) (s : State) : Out := compareA1 .cmp f s

/-- CMP, format A2 (R241). -/
def execCmpA2 (f : A2Cmp) (s : State) : Out := compareA2 .cmp f s

/-- CMP, format A3 (R241). -/
def execCmpA3 (f : A3Cmp) (s : State) : Out := compareA3 .cmp f s

/-- CMN, format A1 (R242). -/
def execCmnA1 (f : A1Cmp) (s : State) : Out := compareA1 .cmn f s

/-- CMN, format A2 (R242). -/
def execCmnA2 (f : A2Cmp) (s : State) : Out := compareA2 .cmn f s

/-- CMN, format A3 (R242). -/
def execCmnA3 (f : A3Cmp) (s : State) : Out := compareA3 .cmn f s

/-- ORR, format A1 (R243). -/
def execOrrA1 (f : A1) (s : State) : Out := dataA1 .orr f s

/-- ORR, format A2 (R243). -/
def execOrrA2 (f : A2) (s : State) : Out := dataA2 .orr f s

/-- ORR, format A3 (R243). -/
def execOrrA3 (f : A3) (s : State) : Out := dataA3 .orr f s

/-- MOV, format A1 (R244). -/
def execMovA1 (f : A1Mov) (s : State) : Out := moveA1 .mov f s

/-- MOV, format A2 (R244). -/
def execMovA2 (f : A2Mov) (s : State) : Out := moveA2 .mov f s

/-- MOV, format A3 (R244). -/
def execMovA3 (f : A3Mov) (s : State) : Out := moveA3 .mov f s

/-- BIC, format A1 (R245). -/
def execBicA1 (f : A1) (s : State) : Out := dataA1 .bic f s

/-- BIC, format A2 (R245). -/
def execBicA2 (f : A2) (s : State) : Out := dataA2 .bic f s

/-- BIC, format A3 (R245). -/
def execBicA3 (f : A3) (s : State) : Out := dataA3 .bic f s

/-- MVN, format A1 (R246). -/
def execMvnA1 (f : A1Mov) (s : State) : Out := moveA1 .mvn f s

/-- MVN, format A2 (R246). -/
def execMvnA2 (f : A2Mov) (s : State) : Out := moveA2 .mvn f s

/-- MVN, format A3 (R246). -/
def execMvnA3 (f : A3Mov) (s : State) : Out := moveA3 .mvn f s

end Sys2Proof.Machine
end

