-- ==== Sys2Proof/Machine/LoadStore.lean ====
section
/-! DEFINITION. Single transfers and swaps (spec/45_arm_load_store.md R280 to R301). -/

namespace Sys2Proof.Machine

/-- The loads, by width and extension. -/
inductive LoadOp where
  | word | byte | half | signedByte | signedHalf
deriving DecidableEq, Repr

/-- The width of a load. -/
def LoadOp.size : LoadOp → Size
  | .word => .word
  | .byte => .byte
  | .half => .half
  | .signedByte => .byte
  | .signedHalf => .half

/-- A word loaded from an address, rotated so that the addressed byte comes first (spec/20_memory.md R74). -/
def rotateLoaded (a w : Word) : Word := w.rotateRight (8 * (a.toNat % 4))

/-- What a load writes to its register, from the address and the bytes read (R285, R286, R293 to R295). -/
def LoadOp.value (op : LoadOp) (a w : Word) : Word :=
  match op with
  | .word => rotateLoaded a w
  | .byte => w
  | .half => w
  | .signedByte => (w.setWidth 8).signExtend 32
  | .signedHalf => (w.setWidth 16).signExtend 32

/-- A transfer of one register. -/
inductive Transfer where
  | load (op : LoadOp)
  | store (sz : Size)
deriving DecidableEq, Repr

/-- A halfword access to an odd address (U1). -/
def oddHalf (sz : Size) (a : Word) : Bool := sz == .half && a.getLsbD 0

/-- The end of a load, after its access: its cycles, write-back, the destination; r15 is a branch that leaves T
as it is (R283, R285). -/
def finishLoad (rd : RegNum) (wb : Option (RegNum × Word)) (data : Word) (s : State) : Out :=
  let s1 := writeBack wb (charges s.params.cycles.load s)
  if rd = 15#4 then jump data s1 else advance (writeReg s1 rd data)

/-- A load (R283): nothing is written when the access aborts. -/
def loadReg (op : LoadOp) (rd : RegNum) (a : Word) (wb : Option (RegNum × Word)) (s : State) : Out :=
  if oddHalf op.size a then .refused .oddHalfword
  else
    match memRead .n op.size a s with
    | .abort s1 => raise .dataAbort s1
    | .ok w s1 => finishLoad rd wb (op.value a w) s1

/-- A store (R283): the base is not written when the access aborts. -/
def storeReg (sz : Size) (rd : RegNum) (a : Word) (wb : Option (RegNum × Word)) (s : State) : Out :=
  if oddHalf sz a then .refused .oddHalfword
  else
    match memWrite .n sz a (storeValue s rd) s with
    | .abort s1 => raise .dataAbort s1
    | .ok _ s1 => advance (writeBack wb (charges s1.params.cycles.store s1))

/-- A transfer of one register. -/
def transfer (t : Transfer) (rd : RegNum) (a : Word) (wb : Option (RegNum × Word)) (s : State) : Out :=
  match t with
  | .load op => loadReg op rd a wb s
  | .store sz => storeReg sz rd a wb s

/-- Immediate offset, P = 1. -/
def transferImmPre (t : Transfer) (allowPc : Bool) (f : LsImmPre) : State → Out :=
  guarded f.cond (f.check allowPc) fun s =>
    transfer t f.rd (addrImmPre f s).addr (wbOf f.w f.rn (addrImmPre f s)) s

/-- Immediate offset, P = 0. -/
def transferImmPost (t : Transfer) (allowPc : Bool) (f : LsImmPost) : State → Out :=
  guarded f.cond (f.check allowPc) fun s =>
    transfer t f.rd (addrImmPost f s).addr (wbOf true f.rn (addrImmPost f s)) s

/-- Register offset, P = 1. -/
def transferRegPre (t : Transfer) (allowPc : Bool) (f : LsRegPre) : State → Out :=
  guarded f.cond (f.check allowPc) fun s =>
    transfer t f.rd (addrRegPre f s).addr (wbOf f.w f.rn (addrRegPre f s)) s

/-- Register offset, P = 0. -/
def transferRegPost (t : Transfer) (allowPc : Bool) (f : LsRegPost) : State → Out :=
  guarded f.cond (f.check allowPc) fun s =>
    transfer t f.rd (addrRegPost f s).addr (wbOf true f.rn (addrRegPost f s)) s

/-- Halfword and signed transfers, register offset. -/
def transferHwReg (t : Transfer) (f : HwReg) : State → Out :=
  guarded f.cond f.check fun s =>
    transfer t f.rd (addrHwReg f s).addr (wbOf f.writeBack f.rn (addrHwReg f s)) s

/-- Halfword and signed transfers, immediate offset. -/
def transferHwImm (t : Transfer) (f : HwImm) : State → Out :=
  guarded f.cond f.check fun s =>
    transfer t f.rd (addrHwImm f s).addr (wbOf f.writeBack f.rn (addrHwImm f s)) s

/-- A swap (R300, R301): the value read goes to Rd after the access. -/
def swap (op : LoadOp) (f : Swp) : State → Out :=
  guarded f.cond f.check fun s =>
    match memSwap op.size (readReg s f.rn) (readReg s f.rm) s with
    | .abort s1 => raise .dataAbort s1
    | .ok w s1 => advance (writeReg (charges s1.params.cycles.swap s1) f.rd (op.value (readReg s f.rn) w))

/-- SWP (R300). -/
def execSwp (f : Swp) (s : State) : Out := swap .word f s

/-- SWPB (R301). -/
def execSwpb (f : Swp) (s : State) : Out := swap .byte f s

/-- STRH, register offset (R296). -/
def execStrhReg (f : HwReg) (s : State) : Out := transferHwReg (.store .half) f s

/-- STRH, immediate offset (R296). -/
def execStrhImm (f : HwImm) (s : State) : Out := transferHwImm (.store .half) f s

/-- LDRH, register offset (R293). -/
def execLdrhReg (f : HwReg) (s : State) : Out := transferHwReg (.load .half) f s

/-- LDRH, immediate offset (R293). -/
def execLdrhImm (f : HwImm) (s : State) : Out := transferHwImm (.load .half) f s

/-- LDRSB, register offset (R294). -/
def execLdrsbReg (f : HwReg) (s : State) : Out := transferHwReg (.load .signedByte) f s

/-- LDRSB, immediate offset (R294). -/
def execLdrsbImm (f : HwImm) (s : State) : Out := transferHwImm (.load .signedByte) f s

/-- LDRSH, register offset (R295). -/
def execLdrshReg (f : HwReg) (s : State) : Out := transferHwReg (.load .signedHalf) f s

/-- LDRSH, immediate offset (R295). -/
def execLdrshImm (f : HwImm) (s : State) : Out := transferHwImm (.load .signedHalf) f s

/-- LDR, immediate offset, P = 1 (R285). -/
def execLdrImmPre (f : LsImmPre) (s : State) : Out := transferImmPre (.load .word) true f s

/-- LDR, immediate offset, P = 0 (R285). -/
def execLdrImmPost (f : LsImmPost) (s : State) : Out := transferImmPost (.load .word) true f s

/-- LDRT, immediate offset (R289): post-indexed, like LDR (D37, log 20). -/
def execLdrtImm (f : LsImmPost) (s : State) : Out := transferImmPost (.load .word) false f s

/-- LDR, register offset, P = 1 (R285). -/
def execLdrRegPre (f : LsRegPre) (s : State) : Out := transferRegPre (.load .word) true f s

/-- LDR, register offset, P = 0 (R285). -/
def execLdrRegPost (f : LsRegPost) (s : State) : Out := transferRegPost (.load .word) true f s

/-- LDRT, register offset (R289): post-indexed, like LDR (D37, log 20). -/
def execLdrtReg (f : LsRegPost) (s : State) : Out := transferRegPost (.load .word) false f s

/-- LDRB, immediate offset, P = 1 (R286). -/
def execLdrbImmPre (f : LsImmPre) (s : State) : Out := transferImmPre (.load .byte) false f s

/-- LDRB, immediate offset, P = 0 (R286). -/
def execLdrbImmPost (f : LsImmPost) (s : State) : Out := transferImmPost (.load .byte) false f s

/-- LDRBT, immediate offset (R290): post-indexed, like LDRB (D37, log 20). -/
def execLdrbtImm (f : LsImmPost) (s : State) : Out := transferImmPost (.load .byte) false f s

/-- LDRB, register offset, P = 1 (R286). -/
def execLdrbRegPre (f : LsRegPre) (s : State) : Out := transferRegPre (.load .byte) false f s

/-- LDRB, register offset, P = 0 (R286). -/
def execLdrbRegPost (f : LsRegPost) (s : State) : Out := transferRegPost (.load .byte) false f s

/-- LDRBT, register offset (R290): post-indexed, like LDRB (D37, log 20). -/
def execLdrbtReg (f : LsRegPost) (s : State) : Out := transferRegPost (.load .byte) false f s

/-- STR, immediate offset, P = 1 (R287). -/
def execStrImmPre (f : LsImmPre) (s : State) : Out := transferImmPre (.store .word) true f s

/-- STR, immediate offset, P = 0 (R287). -/
def execStrImmPost (f : LsImmPost) (s : State) : Out := transferImmPost (.store .word) true f s

/-- STRT, immediate offset (R291): post-indexed, like STR (D37, log 20). -/
def execStrtImm (f : LsImmPost) (s : State) : Out := transferImmPost (.store .word) false f s

/-- STR, register offset, P = 1 (R287). -/
def execStrRegPre (f : LsRegPre) (s : State) : Out := transferRegPre (.store .word) true f s

/-- STR, register offset, P = 0 (R287). -/
def execStrRegPost (f : LsRegPost) (s : State) : Out := transferRegPost (.store .word) true f s

/-- STRT, register offset (R291): post-indexed, like STR (D37, log 20). -/
def execStrtReg (f : LsRegPost) (s : State) : Out := transferRegPost (.store .word) false f s

/-- STRB, immediate offset, P = 1 (R288). -/
def execStrbImmPre (f : LsImmPre) (s : State) : Out := transferImmPre (.store .byte) false f s

/-- STRB, immediate offset, P = 0 (R288). -/
def execStrbImmPost (f : LsImmPost) (s : State) : Out := transferImmPost (.store .byte) false f s

/-- STRBT, immediate offset (R292): post-indexed, like STRB (D37, log 20). -/
def execStrbtImm (f : LsImmPost) (s : State) : Out := transferImmPost (.store .byte) false f s

/-- STRB, register offset, P = 1 (R288). -/
def execStrbRegPre (f : LsRegPre) (s : State) : Out := transferRegPre (.store .byte) false f s

/-- STRB, register offset, P = 0 (R288). -/
def execStrbRegPost (f : LsRegPost) (s : State) : Out := transferRegPost (.store .byte) false f s

/-- STRBT, register offset (R292): post-indexed, like STRB (D37, log 20). -/
def execStrbtReg (f : LsRegPost) (s : State) : Out := transferRegPost (.store .byte) false f s

end Sys2Proof.Machine
end

