-- ==== Sys2Proof/Machine/Multiply.lean ====
section
/-! DEFINITION. The multiplies (spec/43_arm_multiply.md R260 to R267). -/

namespace Sys2Proof.Machine

/-- A value whose bits from `lo` up are all zeros, or, for the signed rule, all ones (R261). -/
def topUniform (signed : Bool) (v : Word) (lo : Nat) : Bool :=
  v >>> lo == 0#32 || (signed && v.sshiftRight lo == 0xFFFFFFFF#32)

/-- The multiplier cycles `m` for the multiplier operand (R261). -/
def multiplierCycles (signed : Bool) (t : CycleTable) (v : Word) : Nat :=
  if topUniform signed v 8 then t.m1
  else if topUniform signed v 16 then t.m2
  else if topUniform signed v 24 then t.m3
  else t.m4

/-- A row of `CycleTable` with the multiplier cycles added to its internal ones (spec/70_reset_and_hazards.md R540). -/
def multiplyRow (signed : Bool) (t : CycleTable) (v : Word) (row : Cycles) : Cycles :=
  { row with i := multiplierCycles signed t v + row.i }

/-- N and Z of a 32-bit product, and C `any value`, when S = 1 (R260, U7). -/
def multiplyFlags (sBit : Bool) (r : Word) (s : State) : State := if sBit then freeC (setNz r s) else s

/-- N and Z of a 64-bit product, and C and V `any value`, when S = 1 (R260, U7). -/
def multiplyFlags64 (sBit : Bool) (p : BitVec 64) (s : State) : State := if sBit then freeV (freeC (setNz64 p s)) else s

/-- The end of MUL and MLA. -/
def finishMul (sBit : Bool) (rd : RegNum) (r : Word) (cycles : Cycles) (s : State) : Out :=
  advance (multiplyFlags sBit r (writeReg (charges cycles s) rd r))

/-- The end of a long multiply: RdLo then RdHi are written. -/
def finishMull (f : Mull) (p : BitVec 64) (cycles : Cycles) (s : State) : Out :=
  advance (multiplyFlags64 f.s p
    (writeReg (writeReg (charges cycles s) f.rdLo (p.extractLsb' 0 32)) f.rdHi (p.extractLsb' 32 32)))

/-- The exact unsigned product in 64 bits (spec/41_shifter_alu_flags.md R212). -/
def umul64 (a b : Word) : BitVec 64 := BitVec.ofNat 64 (a.toNat * b.toNat)

/-- The exact signed product in 64 bits (spec/41_shifter_alu_flags.md R212). -/
def smul64 (a b : Word) : BitVec 64 := BitVec.ofInt 64 (a.toInt * b.toInt)

/-- The accumulate operand `RdHi : RdLo` (R265, R267). -/
def accumulator (f : Mull) (s : State) : BitVec 64 := readReg s f.rdHi ++ readReg s f.rdLo

/-- MUL (R262). -/
def execMul (f : Mul) (s : State) : Out :=
  guarded f.cond f.check (fun s =>
    let t := s.params.cycles
    finishMul f.s f.rd (readReg s f.rm * readReg s f.rs)
      (multiplyRow true t (readReg s f.rs) t.mul) s) s

/-- MLA (R263). -/
def execMla (f : Mla) (s : State) : Out :=
  guarded f.cond f.check (fun s =>
    let t := s.params.cycles
    finishMul f.s f.rd (readReg s f.rm * readReg s f.rs + readReg s f.rn)
      (multiplyRow true t (readReg s f.rs) t.mla) s) s

/-- UMULL (R264). -/
def execUmull (f : Mull) (s : State) : Out :=
  guarded f.cond f.check (fun s =>
    let t := s.params.cycles
    finishMull f (umul64 (readReg s f.rm) (readReg s f.rs))
      (multiplyRow false t (readReg s f.rs) t.mull) s) s

/-- UMLAL (R265). -/
def execUmlal (f : Mull) (s : State) : Out :=
  guarded f.cond f.check (fun s =>
    let t := s.params.cycles
    finishMull f (umul64 (readReg s f.rm) (readReg s f.rs) + accumulator f s)
      (multiplyRow false t (readReg s f.rs) t.mlal) s) s

/-- SMULL (R266). -/
def execSmull (f : Mull) (s : State) : Out :=
  guarded f.cond f.check (fun s =>
    let t := s.params.cycles
    finishMull f (smul64 (readReg s f.rm) (readReg s f.rs))
      (multiplyRow true t (readReg s f.rs) t.mull) s) s

/-- SMLAL (R267). -/
def execSmlal (f : Mull) (s : State) : Out :=
  guarded f.cond f.check (fun s =>
    let t := s.params.cycles
    finishMull f (smul64 (readReg s f.rm) (readReg s f.rs) + accumulator f s)
      (multiplyRow true t (readReg s f.rs) t.mlal) s) s

end Sys2Proof.Machine
end

