-- ==== Sys2Proof/Machine/StatusRegisters.lean ====
section
/-! DEFINITION. MRS and MSR (spec/42_arm_data_processing.md R250, R251). -/

namespace Sys2Proof.Machine

/-- The bytes a field mask names (R251). -/
def byteMask (mask : BitVec 4) : Word :=
  (if mask.getLsbD 0 then 0x000000FF#32 else 0#32) ||| (if mask.getLsbD 1 then 0x0000FF00#32 else 0#32) |||
  (if mask.getLsbD 2 then 0x00FF0000#32 else 0#32) ||| (if mask.getLsbD 3 then 0xFF000000#32 else 0#32)

/-- The old value with the masked bytes of the operand put in (R251). -/
def mergeBytes (old operand mask : Word) : Word := (old &&& ~~~mask) ||| (operand &&& mask)

/-- The byte mask of a CPSR write: in USER mode the c, x and s fields are not written (R251). -/
def cpsrMask (mask : BitVec 4) (s : State) : Word :=
  if s.cpsr.m = .user then byteMask mask &&& 0xFF000000#32 else byteMask mask

/-- The word an MSR of the CPSR builds (R251). -/
def msrWord (mask : BitVec 4) (operand : Word) (s : State) : Word :=
  mergeBytes s.cpsr.word operand (cpsrMask mask s)

/-- A CPSR write by MSR (R251, spec/10_state.md R38): an invalid mode number is the fault, a change of T is U5 (log 10), a
change of M is a branch to the next instruction (spec/40_fetch_decode_dispatch.md R171), an ordinary one to address 0 too
(spec/10_state.md R30). -/
def writeCpsr (w : Word) (s : State) : Out :=
  match psrOfWord w with
  | none => .fault .invalidMode
  | some p =>
    if p.t ≠ s.cpsr.t then .refused .msrChangesT
    else if p.m ≠ s.cpsr.m then .next (branchTo (s.pc + isz s) { s with cpsr := p })
    else advance { s with cpsr := p }

/-- The cycles of MRS and MSR (spec/70_reset_and_hazards.md R540). -/
def statusCycles (s : State) : State := charges s.params.cycles.status s

/-- An SPSR write by MSR (R251, spec/10_state.md R41). -/
def writeSpsr (mask : BitVec 4) (operand : Word) (s : State) : Out :=
  match spsrOf s.cpsr.m s with
  | none => .fault .invalidMode
  | some old =>
    match setSpsrOf s.cpsr.m (mergeBytes old operand (byteMask mask)) s with
    | none => .fault .invalidMode
    | some s1 => advance s1

/-- MSR with its operand (R251). -/
def moveToStatus (r : Bool) (mask : BitVec 4) (operand : Word) (s : State) : Out :=
  if r then writeSpsr mask operand (statusCycles s) else writeCpsr (msrWord mask operand s) (statusCycles s)

/-- The status register MRS reads (R250). -/
def statusWord (r : Bool) (s : State) : Option Word := if r then spsrOf s.cpsr.m s else some s.cpsr.word

/-- MRS (R250). A form refused by its fields (Rd = r15, U4) is refused before its SPSR access could fault (log 10). -/
def execMrs (f : Mrs) (s : State) : Out :=
  guarded f.cond f.check (fun s =>
    match statusWord f.r s with
    | none => .fault .invalidMode
    | some w => advance (writeReg (statusCycles s) f.rd w)) s

/-- MSR, immediate operand (R251). -/
def execMsrImm (f : MsrImm) (s : State) : Out :=
  guarded f.cond none (fun s => moveToStatus f.r f.mask (rotatedImm f.rot f.imm8) s) s

/-- MSR, register operand (R251). A form refused by its fields (Rm = r15, U4) is refused before its SPSR access could fault
(log 10). -/
def execMsrReg (f : MsrReg) (s : State) : Out :=
  guarded f.cond f.check (fun s => moveToStatus f.r f.mask (readReg s f.rm) s) s

end Sys2Proof.Machine
end

