-- ==== Sys2Proof/Machine/System.lean ====
section
/-! DEFINITION. SWI and the undefined instruction (spec/47_arm_coprocessor_swi_undefined.md R335, R340, R341). -/

namespace Sys2Proof.Machine

/-- SWI (R335). -/
def execSwi (f : Swi) (s : State) : Out := guarded f.cond none (trap .swi) s

/-- The UNDEFINED row (R341). -/
def execUndefined (f : UndefSpace) (s : State) : Out := guarded f.cond none (trap .undefined) s

end Sys2Proof.Machine
end

