-- ==== Sys2Proof/Machine/ThumbBranch.lean ====
section
/-! DEFINITION. The Thumb branches and SWI, formats 16 to 19 (spec/49_thumb_memory_branch.md R430 to R432, R447, R448). -/

namespace Sys2Proof.Machine

/-- The target of a conditional branch (R430). -/
def thumbTarget8 (off8 : BitVec 8) (s : State) : Word := s.pc + 4#32 + (off8 ++ 0#1 : BitVec 9).signExtend 32

/-- The target of B (R432). -/
def thumbTarget11 (off11 : BitVec 11) (s : State) : Word := s.pc + 4#32 + (off11 ++ 0#1 : BitVec 12).signExtend 32

/-- What the first half of BL leaves in r14 (R447). -/
def blHigh (off11 : BitVec 11) (s : State) : Word := s.pc + 4#32 + off11.signExtend 32 <<< 12

/-- The target of the second half of BL (R448). -/
def blTarget (off11 : BitVec 11) (s : State) : Word := readReg s lrNum + (off11 ++ 0#1 : BitVec 12).setWidth 32

/-- What the second half of BL leaves in r14 (R448). -/
def blLink (s : State) : Word := (s.pc + 2#32) ||| 1#32

/-- A conditional branch (R430); one not taken is a failed condition and charges nothing (spec/40_fetch_decode_dispatch.md
R175, log 7). -/
def branchIf (c : Cond) (f : T16) (s : State) : Out :=
  if conditionPassed c s.cpsr then .next (branchTo (thumbTarget8 f.off8 s) (branchCycles s)) else advance s

/-- BEQ (R430). -/
def execTBEq (f : T16) (s : State) : Out := branchIf .eq f s

/-- BNE (R430). -/
def execTBNe (f : T16) (s : State) : Out := branchIf .ne f s

/-- BCS (R430). -/
def execTBCs (f : T16) (s : State) : Out := branchIf .cs f s

/-- BCC (R430). -/
def execTBCc (f : T16) (s : State) : Out := branchIf .cc f s

/-- BMI (R430). -/
def execTBMi (f : T16) (s : State) : Out := branchIf .mi f s

/-- BPL (R430). -/
def execTBPl (f : T16) (s : State) : Out := branchIf .pl f s

/-- BVS (R430). -/
def execTBVs (f : T16) (s : State) : Out := branchIf .vs f s

/-- BVC (R430). -/
def execTBVc (f : T16) (s : State) : Out := branchIf .vc f s

/-- BHI (R430). -/
def execTBHi (f : T16) (s : State) : Out := branchIf .hi f s

/-- BLS (R430). -/
def execTBLs (f : T16) (s : State) : Out := branchIf .ls f s

/-- BGE (R430). -/
def execTBGe (f : T16) (s : State) : Out := branchIf .ge f s

/-- BLT (R430). -/
def execTBLt (f : T16) (s : State) : Out := branchIf .lt f s

/-- BGT (R430). -/
def execTBGt (f : T16) (s : State) : Out := branchIf .gt f s

/-- BLE (R430). -/
def execTBLe (f : T16) (s : State) : Out := branchIf .le f s

/-- SWI (R431). -/
def execTSwi (_ : T16) (s : State) : Out := trap .swi s

/-- B (R432). -/
def execTB (f : T18) (s : State) : Out := .next (branchTo (thumbTarget11 f.off11 s) (branchCycles s))

/-- BL, first half (R447). -/
def execTBlHi (f : T18) (s : State) : Out := 
  advance (writeReg (charges s.params.cycles.blFirst s) lrNum (blHigh f.off11 s))

/-- BL, second half (R448). -/
def execTBlLo (f : T18) (s : State) : Out :=
  .next (branchTo (blTarget f.off11 s) (writeReg (branchCycles s) lrNum (blLink s)))

end Sys2Proof.Machine
end

