-- ==== Sys2Proof/Machine/ThumbData.lean ====
section
/-! DEFINITION. The Thumb data-processing instructions, formats 1 to 5, 12 and 13 (spec/48_thumb_data.md R350 to R385). -/

namespace Sys2Proof.Machine

/-- N, Z and C of a shifted value; V unchanged (R351 to R353, R364 to R369). -/
def shiftedOut (b : Shifted) (s : State) : AluOut := logical b.value b.carry s.cpsr

/-- A result written to a low register, with N, Z, C, V. -/
def thumbResult (rd : LoReg) (r : AluOut) (s : State) : Out := advance (setFlags r (writeReg s (low rd) r.value))

/-- A logical result written to a low register: N and Z only (R362). -/
def thumbLogical (rd : LoReg) (r : Word) (s : State) : Out := advance (setNz r (writeReg (immCycles s) (low rd) r))

/-- Format 1 (R351 to R353). -/
def thumbShiftImm (ty : ShiftType) (f : T1) (s : State) : Out :=
  thumbResult f.rd (shiftedOut (shiftImm ty f.off5.toNat (readReg s (low f.rs)) s.cpsr.c) s) (immCycles s)

/-- The register-specified shifts of format 4 (R364 to R366, R369). -/
def thumbShiftReg (ty : ShiftType) (f : T4) (s : State) : Out :=
  thumbResult f.rd
    (shiftedOut (shiftReg ty (shiftAmount s (low f.rs)) (readReg s (low f.rd)) s.cpsr.c) s) (shiftCycles s)

/-- An immediate operand with no shift. -/
def plain (v : Word) (s : State) : Shifted := { value := v, carry := s.cpsr.c }

/-- An addition or subtraction into a low register. -/
def thumbArith (op : AluOp) (rd : LoReg) (a b : Word) (s : State) : Out :=
  thumbResult rd (aluResult op a (plain b s) s) (immCycles s)

/-- A comparison: flags only. -/
def thumbCompare (op : AluOp) (a b : Word) (s : State) : Out :=
  advance (setFlags (aluResult op a (plain b s) s) (immCycles s))

/-- LSL (immediate) (R351). -/
def execTLslImm (f : T1) (s : State) : Out := thumbShiftImm .lsl f s

/-- LSR (immediate) (R352). -/
def execTLsrImm (f : T1) (s : State) : Out := thumbShiftImm .lsr f s

/-- ASR (immediate) (R353). -/
def execTAsrImm (f : T1) (s : State) : Out := thumbShiftImm .asr f s

/-- ADD (register) (R354). -/
def execTAddReg (f : T2Reg) (s : State) : Out :=
  thumbArith .add f.rd (readReg s (low f.rs)) (readReg s (low f.rn)) s

/-- SUB (register) (R355). -/
def execTSubReg (f : T2Reg) (s : State) : Out :=
  thumbArith .sub f.rd (readReg s (low f.rs)) (readReg s (low f.rn)) s

/-- ADD (3-bit immediate) (R356). -/
def execTAddImm3 (f : T2Imm) (s : State) : Out :=
  thumbArith .add f.rd (readReg s (low f.rs)) (f.imm3.setWidth 32) s

/-- SUB (3-bit immediate) (R357). -/
def execTSubImm3 (f : T2Imm) (s : State) : Out :=
  thumbArith .sub f.rd (readReg s (low f.rs)) (f.imm3.setWidth 32) s

/-- MOV (immediate) (R358). -/
def execTMovImm (f : T3) (s : State) : Out := thumbLogical f.rd (f.imm8.setWidth 32) s

/-- CMP (immediate) (R359). -/
def execTCmpImm (f : T3) (s : State) : Out :=
  thumbCompare .cmp (readReg s (low f.rd)) (f.imm8.setWidth 32) s

/-- ADD (8-bit immediate) (R360). -/
def execTAddImm8 (f : T3) (s : State) : Out :=
  thumbArith .add f.rd (readReg s (low f.rd)) (f.imm8.setWidth 32) s

/-- SUB (8-bit immediate) (R361). -/
def execTSubImm8 (f : T3) (s : State) : Out :=
  thumbArith .sub f.rd (readReg s (low f.rd)) (f.imm8.setWidth 32) s

/-- AND (R362). -/
def execTAnd (f : T4) (s : State) : Out :=
  thumbLogical f.rd (readReg s (low f.rd) &&& readReg s (low f.rs)) s

/-- EOR (R363). -/
def execTEor (f : T4) (s : State) : Out :=
  thumbLogical f.rd (readReg s (low f.rd) ^^^ readReg s (low f.rs)) s

/-- LSL (register) (R364). -/
def execTLslReg (f : T4) (s : State) : Out := thumbShiftReg .lsl f s

/-- LSR (register) (R365). -/
def execTLsrReg (f : T4) (s : State) : Out := thumbShiftReg .lsr f s

/-- ASR (register) (R366). -/
def execTAsrReg (f : T4) (s : State) : Out := thumbShiftReg .asr f s

/-- ADC (R367). -/
def execTAdc (f : T4) (s : State) : Out :=
  thumbArith .adc f.rd (readReg s (low f.rd)) (readReg s (low f.rs)) s

/-- SBC (R368). -/
def execTSbc (f : T4) (s : State) : Out :=
  thumbArith .sbc f.rd (readReg s (low f.rd)) (readReg s (low f.rs)) s

/-- ROR (register) (R369). -/
def execTRorReg (f : T4) (s : State) : Out := thumbShiftReg .ror f s

/-- TST (R370): N and Z only. -/
def execTTst (f : T4) (s : State) : Out :=
  advance (setNz (readReg s (low f.rd) &&& readReg s (low f.rs)) (immCycles s))

/-- NEG (R371): 0 - Rs. -/
def execTNeg (f : T4) (s : State) : Out :=
  thumbArith .rsb f.rd (readReg s (low f.rs)) 0#32 s

/-- CMP (low registers) (R372). -/
def execTCmp (f : T4) (s : State) : Out :=
  thumbCompare .cmp (readReg s (low f.rd)) (readReg s (low f.rs)) s

/-- CMN (R373). -/
def execTCmn (f : T4) (s : State) : Out :=
  thumbCompare .cmn (readReg s (low f.rd)) (readReg s (low f.rs)) s

/-- ORR (R374). -/
def execTOrr (f : T4) (s : State) : Out :=
  thumbLogical f.rd (readReg s (low f.rd) ||| readReg s (low f.rs)) s

/-- MUL (R375): the multiplier cycles are chosen by the old value of Rd. -/
def execTMul (f : T4) (s : State) : Out :=
  checked f.checkMul (fun s =>
    finishMul true (low f.rd) (readReg s (low f.rs) * readReg s (low f.rd))
      (multiplyRow true s.params.cycles (readReg s (low f.rd)) s.params.cycles.mul) s) s

/-- BIC (R376). -/
def execTBic (f : T4) (s : State) : Out :=
  thumbLogical f.rd (readReg s (low f.rd) &&& ~~~readReg s (low f.rs)) s

/-- MVN (R377). -/
def execTMvn (f : T4) (s : State) : Out := thumbLogical f.rd (~~~readReg s (low f.rs)) s

/-- A result written to a format 5 register, no flags: r15 is a pc write that drops bit 0 (R378, R380). -/
def highResult (hd : RegNum) (r : Word) (s : State) : Out :=
  if hd = 15#4 then .next (branchTo r (immCycles s)) else advance (writeReg (immCycles s) hd r)

/-- ADD (high registers) (R378). -/
def execTAddHi (f : T5) (s : State) : Out :=
  checked f.check (fun s => highResult f.hd (readReg s f.hd + readReg s f.hs) s) s

/-- CMP (high registers) (R379). -/
def execTCmpHi (f : T5) (s : State) : Out :=
  checked f.checkCmp (fun s => thumbCompare .cmp (readReg s f.hd) (readReg s f.hs) s) s

/-- MOV (high registers) (R380). -/
def execTMovHi (f : T5) (s : State) : Out :=
  checked f.check (fun s => highResult f.hd (readReg s f.hs) s) s

/-- BX (R381). -/
def execTBx (f : T5Bx) (s : State) : Out := branchExchange (readReg s f.hs) (branchCycles s)

/-- A result written to a register with no flags. -/
def plainResult (rd : RegNum) (r : Word) (s : State) : Out := advance (writeReg (immCycles s) rd r)

/-- ADD (pc-relative address) (R382). -/
def execTAddPc (f : T6) (s : State) : Out :=
  plainResult (low f.rd) (thumbPcBase s + wordOffset f.word8) s

/-- ADD (sp-relative address) (R383). -/
def execTAddSp (f : T6) (s : State) : Out :=
  plainResult (low f.rd) (readReg s spNum + wordOffset f.word8) s

/-- ADD (to sp) (R384). -/
def execTAddToSp (f : T13) (s : State) : Out :=
  plainResult spNum (readReg s spNum + wordOffset f.sword7) s

/-- SUB (from sp) (R385). -/
def execTSubFromSp (f : T13) (s : State) : Out :=
  plainResult spNum (readReg s spNum - wordOffset f.sword7) s

end Sys2Proof.Machine
end

