-- ==== Sys2Proof/Machine/ThumbMemory.lean ====
section
/-! DEFINITION. The Thumb loads and stores, formats 6 to 11, 14 and 15 (spec/49_thumb_memory_branch.md R400 to R421). -/

namespace Sys2Proof.Machine

/-- The address of formats 7 and 8: two low registers added. -/
def addrT7 (f : T7) (s : State) : Word := readReg s (low f.rb) + readReg s (low f.ro)

/-- The address of formats 9 and 10: a low register and the 5-bit offset times the width. -/
def addrT9 (scale : Nat) (f : T9) (s : State) : Word := readReg s (low f.rb) + f.off5.setWidth 32 <<< scale

/-- The address of format 11. -/
def addrSp (f : T6) (s : State) : Word := readReg s spNum + wordOffset f.word8

/-- The address of format 6 (R401). -/
def addrPc (f : T6) (s : State) : Word := thumbPcBase s + wordOffset f.word8

/-- Formats 7 and 8. -/
def transferT7 (t : Transfer) (f : T7) (s : State) : Out := transfer t (low f.rd) (addrT7 f s) none s

/-- Formats 9 and 10. -/
def transferT9 (t : Transfer) (scale : Nat) (f : T9) (s : State) : Out :=
  transfer t (low f.rd) (addrT9 scale f s) none s

/-- LDR (pc-relative) (R401). -/
def execTLdrPc (f : T6) (s : State) : Out := transfer (.load .word) (low f.rd) (addrPc f s) none s

/-- STR (register offset) (R402). -/
def execTStrReg (f : T7) (s : State) : Out := transferT7 (.store .word) f s

/-- STRB (register offset) (R403). -/
def execTStrbReg (f : T7) (s : State) : Out := transferT7 (.store .byte) f s

/-- LDR (register offset) (R404). -/
def execTLdrReg (f : T7) (s : State) : Out := transferT7 (.load .word) f s

/-- LDRB (register offset) (R405). -/
def execTLdrbReg (f : T7) (s : State) : Out := transferT7 (.load .byte) f s

/-- STRH (register offset) (R406). -/
def execTStrhReg (f : T7) (s : State) : Out := transferT7 (.store .half) f s

/-- LDRH (register offset) (R407). -/
def execTLdrhReg (f : T7) (s : State) : Out := transferT7 (.load .half) f s

/-- LDSB (R408). -/
def execTLdsb (f : T7) (s : State) : Out := transferT7 (.load .signedByte) f s

/-- LDSH (R409). -/
def execTLdsh (f : T7) (s : State) : Out := transferT7 (.load .signedHalf) f s

/-- STR (immediate offset) (R410). -/
def execTStrImm (f : T9) (s : State) : Out := transferT9 (.store .word) 2 f s

/-- LDR (immediate offset) (R411). -/
def execTLdrImm (f : T9) (s : State) : Out := transferT9 (.load .word) 2 f s

/-- STRB (immediate offset) (R412). -/
def execTStrbImm (f : T9) (s : State) : Out := transferT9 (.store .byte) 0 f s

/-- LDRB (immediate offset) (R413). -/
def execTLdrbImm (f : T9) (s : State) : Out := transferT9 (.load .byte) 0 f s

/-- STRH (immediate offset) (R414). -/
def execTStrhImm (f : T9) (s : State) : Out := transferT9 (.store .half) 1 f s

/-- LDRH (immediate offset) (R415). -/
def execTLdrhImm (f : T9) (s : State) : Out := transferT9 (.load .half) 1 f s

/-- STR (sp-relative) (R416). -/
def execTStrSp (f : T6) (s : State) : Out := transfer (.store .word) (low f.rd) (addrSp f s) none s

/-- LDR (sp-relative) (R417). -/
def execTLdrSp (f : T6) (s : State) : Out := transfer (.load .word) (low f.rd) (addrSp f s) none s

/-- The registers of PUSH: the listed ones, then r14 if R = 1 (R418). -/
def pushRegs (f : T14) : List RegNum := listRegs f.list ++ if f.r then [lrNum] else []

/-- The registers of POP: the listed ones, then r15 if R = 1 (R419). -/
def popRegs (f : T14) : List RegNum := listRegs f.list ++ if f.r then [15#4] else []

/-- The lowest address of PUSH, which is also the new stack pointer (R418). -/
def pushStart (f : T14) (s : State) : Word := readReg s spNum - listBytes (pushRegs f)

/-- PUSH (R418). -/
def execTPush (f : T14) (s : State) : Out :=
  checked f.check (fun s =>
    storeWords ((pushRegs f).map (readReg s)) (pushStart f s)
      (fun s1 => advance (writeReg (storeCycles s1) spNum (pushStart f s))) s) s

/-- POP (R419): a POP of the pc drops bit 0 and stays in Thumb state. -/
def execTPop (f : T14) (s : State) : Out :=
  checked f.check (fun s =>
    let start := readReg s spNum
    loadWords (popRegs f).length start (fun ws s1 =>
      let s2 := writeLoaded (popRegs f) ws (writeReg (loadCycles s1) spNum (start + listBytes (popRegs f)))
      if f.r then .next (branchTo (pcWord ws) s2) else advance s2) s) s

/-- STMIA (R420). -/
def execTStmia (f : T15) (s : State) : Out :=
  checked f.checkStore (fun s =>
    let start := readReg s (low f.rb)
    storeWords ((listRegs f.list).map (readReg s)) start
      (fun s1 => advance (writeReg (storeCycles s1) (low f.rb) (start + listBytes (listRegs f.list)))) s) s

/-- LDMIA (R421): no write-back when the base register is in the list. -/
def execTLdmia (f : T15) (s : State) : Out :=
  checked f.checkLoad (fun s =>
    let start := readReg s (low f.rb)
    loadWords (listRegs f.list).length start (fun ws s1 =>
      let s2 := loadCycles s1
      let s3 := if f.list.getLsbD f.rb.toNat then s2
        else writeReg s2 (low f.rb) (start + listBytes (listRegs f.list))
      advance (writeLoaded (listRegs f.list) ws s3)) s) s

end Sys2Proof.Machine
end

