-- ==== Sys2Proof/Machine/Dispatch.lean ====
section
/-! DEFINITION. Dispatch (spec/40_fetch_decode_dispatch.md R173, R174): one arm per constructor of Instr. -/

namespace Sys2Proof.Machine

def exec (i : Instr) (s : State) : Host.Outcome State Fault Refusal :=
  match i with
  | .andA1 f => Sys2Proof.Machine.execAndA1 f s
  | .andA2 f => Sys2Proof.Machine.execAndA2 f s
  | .andA3 f => Sys2Proof.Machine.execAndA3 f s
  | .eorA1 f => Sys2Proof.Machine.execEorA1 f s
  | .eorA2 f => Sys2Proof.Machine.execEorA2 f s
  | .eorA3 f => Sys2Proof.Machine.execEorA3 f s
  | .subA1 f => Sys2Proof.Machine.execSubA1 f s
  | .subA2 f => Sys2Proof.Machine.execSubA2 f s
  | .subA3 f => Sys2Proof.Machine.execSubA3 f s
  | .rsbA1 f => Sys2Proof.Machine.execRsbA1 f s
  | .rsbA2 f => Sys2Proof.Machine.execRsbA2 f s
  | .rsbA3 f => Sys2Proof.Machine.execRsbA3 f s
  | .addA1 f => Sys2Proof.Machine.execAddA1 f s
  | .addA2 f => Sys2Proof.Machine.execAddA2 f s
  | .addA3 f => Sys2Proof.Machine.execAddA3 f s
  | .adcA1 f => Sys2Proof.Machine.execAdcA1 f s
  | .adcA2 f => Sys2Proof.Machine.execAdcA2 f s
  | .adcA3 f => Sys2Proof.Machine.execAdcA3 f s
  | .sbcA1 f => Sys2Proof.Machine.execSbcA1 f s
  | .sbcA2 f => Sys2Proof.Machine.execSbcA2 f s
  | .sbcA3 f => Sys2Proof.Machine.execSbcA3 f s
  | .rscA1 f => Sys2Proof.Machine.execRscA1 f s
  | .rscA2 f => Sys2Proof.Machine.execRscA2 f s
  | .rscA3 f => Sys2Proof.Machine.execRscA3 f s
  | .tstA1 f => Sys2Proof.Machine.execTstA1 f s
  | .tstA2 f => Sys2Proof.Machine.execTstA2 f s
  | .tstA3 f => Sys2Proof.Machine.execTstA3 f s
  | .teqA1 f => Sys2Proof.Machine.execTeqA1 f s
  | .teqA2 f => Sys2Proof.Machine.execTeqA2 f s
  | .teqA3 f => Sys2Proof.Machine.execTeqA3 f s
  | .cmpA1 f => Sys2Proof.Machine.execCmpA1 f s
  | .cmpA2 f => Sys2Proof.Machine.execCmpA2 f s
  | .cmpA3 f => Sys2Proof.Machine.execCmpA3 f s
  | .cmnA1 f => Sys2Proof.Machine.execCmnA1 f s
  | .cmnA2 f => Sys2Proof.Machine.execCmnA2 f s
  | .cmnA3 f => Sys2Proof.Machine.execCmnA3 f s
  | .orrA1 f => Sys2Proof.Machine.execOrrA1 f s
  | .orrA2 f => Sys2Proof.Machine.execOrrA2 f s
  | .orrA3 f => Sys2Proof.Machine.execOrrA3 f s
  | .movA1 f => Sys2Proof.Machine.execMovA1 f s
  | .movA2 f => Sys2Proof.Machine.execMovA2 f s
  | .movA3 f => Sys2Proof.Machine.execMovA3 f s
  | .bicA1 f => Sys2Proof.Machine.execBicA1 f s
  | .bicA2 f => Sys2Proof.Machine.execBicA2 f s
  | .bicA3 f => Sys2Proof.Machine.execBicA3 f s
  | .mvnA1 f => Sys2Proof.Machine.execMvnA1 f s
  | .mvnA2 f => Sys2Proof.Machine.execMvnA2 f s
  | .mvnA3 f => Sys2Proof.Machine.execMvnA3 f s
  | .mrs f => Sys2Proof.Machine.execMrs f s
  | .msrImm f => Sys2Proof.Machine.execMsrImm f s
  | .msrReg f => Sys2Proof.Machine.execMsrReg f s
  | .bx f => Sys2Proof.Machine.execBx f s
  | .mul f => Sys2Proof.Machine.execMul f s
  | .mla f => Sys2Proof.Machine.execMla f s
  | .umull f => Sys2Proof.Machine.execUmull f s
  | .umlal f => Sys2Proof.Machine.execUmlal f s
  | .smull f => Sys2Proof.Machine.execSmull f s
  | .smlal f => Sys2Proof.Machine.execSmlal f s
  | .swp f => Sys2Proof.Machine.execSwp f s
  | .swpb f => Sys2Proof.Machine.execSwpb f s
  | .strhReg f => Sys2Proof.Machine.execStrhReg f s
  | .strhImm f => Sys2Proof.Machine.execStrhImm f s
  | .ldrhReg f => Sys2Proof.Machine.execLdrhReg f s
  | .ldrhImm f => Sys2Proof.Machine.execLdrhImm f s
  | .ldrsbReg f => Sys2Proof.Machine.execLdrsbReg f s
  | .ldrsbImm f => Sys2Proof.Machine.execLdrsbImm f s
  | .ldrshReg f => Sys2Proof.Machine.execLdrshReg f s
  | .ldrshImm f => Sys2Proof.Machine.execLdrshImm f s
  | .ldrImmPre f => Sys2Proof.Machine.execLdrImmPre f s
  | .ldrImmPost f => Sys2Proof.Machine.execLdrImmPost f s
  | .ldrtImm f => Sys2Proof.Machine.execLdrtImm f s
  | .ldrRegPre f => Sys2Proof.Machine.execLdrRegPre f s
  | .ldrRegPost f => Sys2Proof.Machine.execLdrRegPost f s
  | .ldrtReg f => Sys2Proof.Machine.execLdrtReg f s
  | .ldrbImmPre f => Sys2Proof.Machine.execLdrbImmPre f s
  | .ldrbImmPost f => Sys2Proof.Machine.execLdrbImmPost f s
  | .ldrbtImm f => Sys2Proof.Machine.execLdrbtImm f s
  | .ldrbRegPre f => Sys2Proof.Machine.execLdrbRegPre f s
  | .ldrbRegPost f => Sys2Proof.Machine.execLdrbRegPost f s
  | .ldrbtReg f => Sys2Proof.Machine.execLdrbtReg f s
  | .strImmPre f => Sys2Proof.Machine.execStrImmPre f s
  | .strImmPost f => Sys2Proof.Machine.execStrImmPost f s
  | .strtImm f => Sys2Proof.Machine.execStrtImm f s
  | .strRegPre f => Sys2Proof.Machine.execStrRegPre f s
  | .strRegPost f => Sys2Proof.Machine.execStrRegPost f s
  | .strtReg f => Sys2Proof.Machine.execStrtReg f s
  | .strbImmPre f => Sys2Proof.Machine.execStrbImmPre f s
  | .strbImmPost f => Sys2Proof.Machine.execStrbImmPost f s
  | .strbtImm f => Sys2Proof.Machine.execStrbtImm f s
  | .strbRegPre f => Sys2Proof.Machine.execStrbRegPre f s
  | .strbRegPost f => Sys2Proof.Machine.execStrbRegPost f s
  | .strbtReg f => Sys2Proof.Machine.execStrbtReg f s
  | .undefined f => Sys2Proof.Machine.execUndefined f s
  | .ldm1 f => Sys2Proof.Machine.execLdm1 f s
  | .ldm2 f => Sys2Proof.Machine.execLdm2 f s
  | .ldm3 f => Sys2Proof.Machine.execLdm3 f s
  | .stm1 f => Sys2Proof.Machine.execStm1 f s
  | .stm2 f => Sys2Proof.Machine.execStm2 f s
  | .b f => Sys2Proof.Machine.execB f s
  | .bl f => Sys2Proof.Machine.execBl f s
  | .ldc f => Sys2Proof.Machine.execLdc f s
  | .stc f => Sys2Proof.Machine.execStc f s
  | .cdp f => Sys2Proof.Machine.execCdp f s
  | .mrc f => Sys2Proof.Machine.execMrc f s
  | .mcr f => Sys2Proof.Machine.execMcr f s
  | .swi f => Sys2Proof.Machine.execSwi f s
  | .tLslImm f => Sys2Proof.Machine.execTLslImm f s
  | .tLsrImm f => Sys2Proof.Machine.execTLsrImm f s
  | .tAsrImm f => Sys2Proof.Machine.execTAsrImm f s
  | .tAddReg f => Sys2Proof.Machine.execTAddReg f s
  | .tSubReg f => Sys2Proof.Machine.execTSubReg f s
  | .tAddImm3 f => Sys2Proof.Machine.execTAddImm3 f s
  | .tSubImm3 f => Sys2Proof.Machine.execTSubImm3 f s
  | .tMovImm f => Sys2Proof.Machine.execTMovImm f s
  | .tCmpImm f => Sys2Proof.Machine.execTCmpImm f s
  | .tAddImm8 f => Sys2Proof.Machine.execTAddImm8 f s
  | .tSubImm8 f => Sys2Proof.Machine.execTSubImm8 f s
  | .tAnd f => Sys2Proof.Machine.execTAnd f s
  | .tEor f => Sys2Proof.Machine.execTEor f s
  | .tLslReg f => Sys2Proof.Machine.execTLslReg f s
  | .tLsrReg f => Sys2Proof.Machine.execTLsrReg f s
  | .tAsrReg f => Sys2Proof.Machine.execTAsrReg f s
  | .tAdc f => Sys2Proof.Machine.execTAdc f s
  | .tSbc f => Sys2Proof.Machine.execTSbc f s
  | .tRorReg f => Sys2Proof.Machine.execTRorReg f s
  | .tTst f => Sys2Proof.Machine.execTTst f s
  | .tNeg f => Sys2Proof.Machine.execTNeg f s
  | .tCmp f => Sys2Proof.Machine.execTCmp f s
  | .tCmn f => Sys2Proof.Machine.execTCmn f s
  | .tOrr f => Sys2Proof.Machine.execTOrr f s
  | .tMul f => Sys2Proof.Machine.execTMul f s
  | .tBic f => Sys2Proof.Machine.execTBic f s
  | .tMvn f => Sys2Proof.Machine.execTMvn f s
  | .tAddHi f => Sys2Proof.Machine.execTAddHi f s
  | .tCmpHi f => Sys2Proof.Machine.execTCmpHi f s
  | .tMovHi f => Sys2Proof.Machine.execTMovHi f s
  | .tBx f => Sys2Proof.Machine.execTBx f s
  | .tLdrPc f => Sys2Proof.Machine.execTLdrPc f s
  | .tStrReg f => Sys2Proof.Machine.execTStrReg f s
  | .tStrbReg f => Sys2Proof.Machine.execTStrbReg f s
  | .tLdrReg f => Sys2Proof.Machine.execTLdrReg f s
  | .tLdrbReg f => Sys2Proof.Machine.execTLdrbReg f s
  | .tStrhReg f => Sys2Proof.Machine.execTStrhReg f s
  | .tLdrhReg f => Sys2Proof.Machine.execTLdrhReg f s
  | .tLdsb f => Sys2Proof.Machine.execTLdsb f s
  | .tLdsh f => Sys2Proof.Machine.execTLdsh f s
  | .tStrImm f => Sys2Proof.Machine.execTStrImm f s
  | .tLdrImm f => Sys2Proof.Machine.execTLdrImm f s
  | .tStrbImm f => Sys2Proof.Machine.execTStrbImm f s
  | .tLdrbImm f => Sys2Proof.Machine.execTLdrbImm f s
  | .tStrhImm f => Sys2Proof.Machine.execTStrhImm f s
  | .tLdrhImm f => Sys2Proof.Machine.execTLdrhImm f s
  | .tStrSp f => Sys2Proof.Machine.execTStrSp f s
  | .tLdrSp f => Sys2Proof.Machine.execTLdrSp f s
  | .tAddPc f => Sys2Proof.Machine.execTAddPc f s
  | .tAddSp f => Sys2Proof.Machine.execTAddSp f s
  | .tAddToSp f => Sys2Proof.Machine.execTAddToSp f s
  | .tSubFromSp f => Sys2Proof.Machine.execTSubFromSp f s
  | .tPush f => Sys2Proof.Machine.execTPush f s
  | .tPop f => Sys2Proof.Machine.execTPop f s
  | .tStmia f => Sys2Proof.Machine.execTStmia f s
  | .tLdmia f => Sys2Proof.Machine.execTLdmia f s
  | .tBEq f => Sys2Proof.Machine.execTBEq f s
  | .tBNe f => Sys2Proof.Machine.execTBNe f s
  | .tBCs f => Sys2Proof.Machine.execTBCs f s
  | .tBCc f => Sys2Proof.Machine.execTBCc f s
  | .tBMi f => Sys2Proof.Machine.execTBMi f s
  | .tBPl f => Sys2Proof.Machine.execTBPl f s
  | .tBVs f => Sys2Proof.Machine.execTBVs f s
  | .tBVc f => Sys2Proof.Machine.execTBVc f s
  | .tBHi f => Sys2Proof.Machine.execTBHi f s
  | .tBLs f => Sys2Proof.Machine.execTBLs f s
  | .tBGe f => Sys2Proof.Machine.execTBGe f s
  | .tBLt f => Sys2Proof.Machine.execTBLt f s
  | .tBGt f => Sys2Proof.Machine.execTBGt f s
  | .tBLe f => Sys2Proof.Machine.execTBLe f s
  | .tSwi f => Sys2Proof.Machine.execTSwi f s
  | .tB f => Sys2Proof.Machine.execTB f s
  | .tBlHi f => Sys2Proof.Machine.execTBlHi f s
  | .tBlLo f => Sys2Proof.Machine.execTBlLo f s

end Sys2Proof.Machine
end

