-- ==== Sys2Proof/Machine/Engine.lean ====
section
/-! DEFINITION. The pieces of a step (spec/40_fetch_decode_dispatch.md R160 to R187; spec/60_exceptions.md R460, R510, R512). -/

namespace Sys2Proof.Machine

/-- `PendingException()` (spec/60_exceptions.md R460). -/
def pendingException (s : State) : Option Exc :=
  if s.lines.resetReq then some .reset
  else if s.fault.aborted = some .data then some .dataAbort
  else if s.lines.fiqLine && !s.cpsr.f then some .fiq
  else if s.lines.irqLine && !s.cpsr.i then some .irq
  else if s.pipe.decoded.pabort then some .prefetchAbort
  else none

/-- A halt is a next state whose only change is the mark that says so (R161, R510, log 2). -/
def halted (r : HaltReason) (s : State) : State := { s with dbg := { s.dbg with halt := some r } }

/-- The halt that stop flag and budget ask for (R161). -/
def haltAsked (s : State) : Option HaltReason :=
  if s.dbg.stopFlag then some .stop
  else if s.dbg.stepBudget = some 0 then some .budget
  else none

/-- A step that is no halt clears the mark (log 2). -/
def clearHalt (s : State) : State := { s with dbg := { s.dbg with halt := none } }

/-- The slots are refilled when they are invalid (R160, R170). -/
def ensureSlots (s : State) : State := if s.pipe.valid then s else refill s

/-- A test of the debug hook holds at a call (spec/60_exceptions.md R512). DESIGN CHOICE (log 11): the spec does not say what the
hook reads as r15 of a mode; a test of it reads what `GetReg` gives, and `pc` tests the execute address the hook is given. -/
def HookTest.holds (pc w : Word) (s : State) : HookTest → Bool
  | .pc v => v == pc
  | .word v => v == w
  | .reg m n v => regOf m n s == v
  | .cpsr mask v => s.cpsr.word &&& mask == v
  | .spsr slot v => s.spsr[slot] == v
  | .byte a v => memGet s.mem a.toNat == v
  | .retired n => s.ctr.numInstrs == n

/-- The debug hook asks for a stop: its next answer does, or all the tests of one of its stops hold. -/
def hookStops (pc w : Word) (s : State) : Bool :=
  s.collab.hook.headD false || s.collab.breakpoints.any fun b => b.all (HookTest.holds pc w s)

/-- `DebugHook(pc, instr)` (spec/60_exceptions.md R512): of the core it may set the stop flag, nothing else; its answer to
this call is used up (log 1). -/
def debugHook (pc w : Word) (s : State) : State :=
  { s with
    dbg := { s.dbg with stopFlag := s.dbg.stopFlag || hookStops pc w s }
    collab := { s.collab with hook := s.collab.hook.tail } }

/-- The budget counts instruction steps (R161). -/
def spendBudget (s : State) : State :=
  { s with dbg := { s.dbg with stepBudget := s.dbg.stepBudget.map fun n => n - 1 } }

/-- The slots advance and the step's own fetch is made (R166). -/
def fetchAhead (s : State) : State :=
  let s1 := { s with pipe := { s.pipe with decoded := s.pipe.loaded } }
  let f := fetch (readPc s) s1
  { f.2 with pipe := { f.2.pipe with loaded := f.1 } }

/-- Executing what the decoder answered (R172 to R176): an undefined instruction's and a near match's condition is
evaluated first (R175, spec/30_encoding.md R103). -/
def execDecoded (d : Decoded) (s : State) : Out :=
  match d with
  | .instr i => exec i s
  | .undefined (some c) => guarded c none (trap .undefined) s
  | .undefined none => trap .undefined s
  | .nearMatch (some c) => guarded c none (fun _ => .refused .nearMatch) s
  | .nearMatch none => .refused .nearMatch
  | .never => .refused .condNever

/-- The clock advances by the cost charged (spec/60_exceptions.md R500). -/
def advanceClock (s : State) : State :=
  { s with ctr := { s.ctr with numInstrs := s.ctr.numInstrs + 1, now := s.ctr.now + s.ctr.cost, cost := 0 } }

/-- `Retire()` (R185); the plain advance of the pc is part of the meanings. -/
def retire (s : State) : State := eventPass (advanceClock s)

/-- What an instruction step does before the instruction executes: the budget, the debug hook, the fetch. -/
def prepare (s : State) : State :=
  fetchAhead (debugHook s.pc s.pipe.decoded.word (spendBudget s))

/-- An instruction step (R164): the word in `Decoded` is executed, in the instruction set in force at its start. -/
def instructionStep (s : State) : Out :=
  match execDecoded (decodeWord s.cpsr.t s.pipe.decoded.word) (prepare s) with
  | .next t => .next (retire t)
  | .fault r => .fault r
  | .refused r => .refused r

/-- The boundary after the halts (R160, R163, spec/60_exceptions.md R510): the slots are refilled when they are invalid; a
pending exception is caught or entered, else an instruction step. A caught one changes no state, the refill included
(spec/00_scope.md R13, log 12). -/
def boundary (s : State) : Out :=
  let s1 := ensureSlots (clearHalt s)
  match pendingException s1 with
  | some e => if caught e s1 then .next (halted (.caught e) s) else .next (enter false e s1)
  | none => instructionStep s1

/-- The instruction set, slots and memory as they are when an instruction of `nbits` bits stands at the pc. -/
def placeWord (s : State) (nbits w : Nat) : State :=
  let t := nbits == 16
  let a := alignPc t s.pc
  let sz := if t then Size.half else Size.word
  let n := if t then 2#32 else 4#32
  let word := if t then (BitVec.ofNat 16 w).setWidth 32 else BitVec.ofNat 32 w
  let mem := portStore s.mem sz a word
  { s with
    pc := a
    cpsr := { s.cpsr with t }
    mem
    pipe := {
      decoded := { word, pabort := false }
      loaded := { word := portLoad mem sz (a + n), pabort := false }
      valid := true
      lastFetch := { valid := true, addr := a + n, size := n } } }

/-- Nothing at the boundary stops or replaces the next instruction. -/
def clearBoundary (s : State) : State :=
  { s with
    dbg := { s.dbg with
      stopFlag := false
      stepBudget := if s.dbg.stepBudget = some 0 then none else s.dbg.stepBudget }
    fault := { s.fault with aborted := if s.fault.aborted = some .data then none else s.fault.aborted }
    lines := {
      resetReq := false
      fiqLine := s.lines.fiqLine && s.cpsr.f
      irqLine := s.lines.irqLine && s.cpsr.i } }

end Sys2Proof.Machine
end

