-- ==== Sys2Proof/Machine/Step.lean ====
section
/-! DEFINITION. One step of the core (spec/40_fetch_decode_dispatch.md R160), and where its next instruction stands. -/

namespace Sys2Proof.Machine

/-- `Step()` (R160). -/
def step (s : State) : Host.Outcome State Fault Refusal :=
  match haltAsked s with
  | some r => .next (halted r s)
  | none => boundary s

/-- The state with an instruction stored where the step fetches its next one (log 16). -/
def State.withFetchWord (s : State) (nbits w : Nat) : State := clearBoundary (placeWord s nbits w)

end Sys2Proof.Machine
end

