-- ==== Sys2Proof/Machine/Session.lean ====
section
/-! DEFINITION. The session surface: what the host and the debugger do to the core between steps (spec/10_state.md R25,
R38, R41, R51; spec/20_memory.md R88; spec/40_fetch_decode_dispatch.md R162; spec/47_arm_coprocessor_swi_undefined.md R320,
R329; spec/60_exceptions.md R512; spec/70_reset_and_hazards.md R520 to R522). None stands for `fault InvalidMode`. -/

namespace Sys2Proof.Machine

/-- `GetReg(mode, n)` (spec/10_state.md R25, R28). -/
def getReg (m : BitVec 5) (n : RegNum) (s : State) : Option Word :=
  match modeOfNumber m with
  | none => none
  | some mode => some (regOf mode n s)

/-- `SetReg(mode, n, v)` (spec/10_state.md R25); a write of r15 is stored aligned and invalidates the slots (R31, R170). -/
def setReg (m : BitVec 5) (n : RegNum) (v : Word) (s : State) : Option State :=
  match modeOfNumber m with
  | none => none
  | some mode =>
    if n = 15#4 then some (flush { s with pc := alignPc s.cpsr.t v }) else some (writeBank s mode.bank n v)

/-- `GetSPSR(mode)` (spec/10_state.md R41). -/
def getSpsr (m : BitVec 5) (s : State) : Option Word :=
  match modeOfNumber m with
  | none => none
  | some mode => spsrOf mode s

/-- `SetSPSR(mode, v)` (spec/10_state.md R41). -/
def setSpsr (m : BitVec 5) (v : Word) (s : State) : Option State :=
  match modeOfNumber m with
  | none => none
  | some mode => setSpsrOf mode v s

/-- `SetCPSR(v)` from outside (spec/10_state.md R38): a change of M or T flushes and refills from the next instruction
address, which between steps is the pc (log 14). -/
def setCpsr (v : Word) (s : State) : Option State :=
  match psrOfWord v with
  | none => none
  | some p =>
    let s1 := { s with cpsr := p }
    if p.m ≠ s.cpsr.m ∨ p.t ≠ s.cpsr.t then some (branchTo s.pc s1) else some s1

/-- `ReadRaw(addr, size)` (spec/20_memory.md R88). DESIGN CHOICE (log 23): the spec fixes no alignment for a raw halfword at an
odd address, and its two bytes are those at the address and the next one; and it does not say whether the memory interface
acts at a raw access (R72), or a device answers it: here it reads the bytes of memory, no region is met and nothing else
happens. -/
def readRaw (sz : Size) (a : Word) (s : State) : Word := portLoad s.mem sz a

/-- `WriteRaw(addr, size, value)` (spec/20_memory.md R88). DESIGN CHOICE (log 23): a raw halfword at an odd address goes to
the address and the next one; the bytes of memory are written, no region is met or drops them, and nothing else happens. -/
def writeRaw (sz : Size) (a v : Word) (s : State) : State := { s with mem := portStore s.mem sz a v }

/-- "force a reset exception" (spec/10_state.md R55). -/
def forceReset (s : State) : State := { s with lines := { s.lines with resetReq := true } }

/-- The zeroed session with a memory bound to it (spec/70_reset_and_hazards.md R520); CPSR.M is SVC (D33). -/
def zeroed (mem : Memory) (collab : Collaborators) (params : Params) : State where
  regs := Regs.reset
  pc := 0#32
  cpsr := { n := false, z := false, c := false, v := false, i := false, f := false, t := false, m := .svc }
  spsr := .replicate 7 0#32
  fault := { aborted := none, abortAddr := 0#32, reseted := false }
  inted := 0#2
  lastInted := 0#2
  pipe := {
    decoded := { word := 0#32, pabort := false }
    loaded := { word := 0#32, pabort := false }
    valid := false
    lastFetch := { valid := false, addr := 0#32, size := 0#32 } }
  ctr := { numS := 0, numN := 0, numI := 0, numC := 0, numF := 0, numInstrs := 0, now := 0, cost := 0 }
  acc := 0#64
  coproc := .replicate 16 .unbound
  sched := { events := [], nextHandle := 0 }
  lines := { resetReq := false, fiqLine := false, irqLine := false }
  dbg := { catchMask := 0#9, stopFlag := false, stepBudget := none, halt := none }
  mem
  collab
  params
  freeCount := 0

/-- `ColdReset()` (spec/70_reset_and_hazards.md R520): the zeroed session and one exception step, `Enter(Reset)`. -/
def coldReset (mem : Memory) (collab : Collaborators) (params : Params) : State :=
  enter false .reset (forceReset (zeroed mem collab params))

/-- Binding a handler set to a slot calls `init()` (spec/47_arm_coprocessor_swi_undefined.md R329). DESIGN CHOICE (log 22): the
spec does not say what binding does to a slot that is already bound; the old set goes without its `exit()`. -/
def bindCoproc (cp : BitVec 4) (h : Handler) (s : State) : State :=
  (callData cp .init { s with coproc := s.coproc.set cp.toFin (.bound h) }).2

/-- Releasing a slot calls `exit()` (spec/47_arm_coprocessor_swi_undefined.md R329); an unbound slot has none to call. -/
def releaseCoproc (cp : BitVec 4) (s : State) : State :=
  let s1 := (callData cp .exit s).2
  { s1 with coproc := s1.coproc.set cp.toFin .unbound }

/-- The debugger's `read_reg(r)` (spec/47_arm_coprocessor_swi_undefined.md R320). An unbound slot reports 'no coprocessor'
(spec/10_state.md R52): DESIGN CHOICE (log 21), the report is `none`, with no value and no change. -/
def readCoprocReg (cp : BitVec 4) (r : Nat) (s : State) : Option (Word × State) :=
  if s.coproc[cp.toFin] = .unbound then none else some (callData cp (.readReg r) s)

/-- The debugger's `write_reg(r, v)` (spec/47_arm_coprocessor_swi_undefined.md R320); 'no coprocessor' as for `read_reg`
(log 21). -/
def writeCoprocReg (cp : BitVec 4) (r : Nat) (v : Word) (s : State) : Option State :=
  if s.coproc[cp.toFin] = .unbound then none else some (callData cp (.writeReg r v) s).2

/-- What a collaborator reads of the accumulator: its low 40 bits (spec/10_state.md R51). -/
def readAcc (s : State) : BitVec 40 := s.acc.setWidth 40

/-- A collaborator's write of the accumulator (spec/10_state.md R51). -/
def writeAcc (v : BitVec 64) (s : State) : State := { s with acc := v }

/-- A collaborator's write of `Inted` and `LastInted` (spec/10_state.md R46). -/
def setInted (a b : BitVec 2) (s : State) : State := { s with inted := a, lastInted := b }

/-- A collaborator clears `Reseted` (spec/10_state.md R45). -/
def clearReseted (s : State) : State := { s with fault := { s.fault with reseted := false } }

/-- A collaborator clears `Aborted` (spec/10_state.md R43). -/
def clearAbortedFlag (s : State) : State := { s with fault := { s.fault with aborted := none } }

/-- The host drives the interrupt lines (spec/10_state.md R55). -/
def setLines (fiq irq : Bool) (s : State) : State :=
  { s with lines := { s.lines with fiqLine := fiq, irqLine := irq } }

/-- The debugger sets the catch mask (spec/10_state.md R54). -/
def setCatchMask (m : BitVec 9) (s : State) : State := { s with dbg := { s.dbg with catchMask := m } }

/-- The host sets the stop flag and the budget (spec/10_state.md R56). -/
def setRun (stop : Bool) (budget : Option Nat) (s : State) : State :=
  { s with dbg := { s.dbg with stopFlag := stop, stepBudget := budget } }

/-- `Run()` for at most `fuel` steps: it ends at the first halt, fault or refusal (spec/40_fetch_decode_dispatch.md R162). -/
def run : Nat → State → Out
  | 0, s => .next s
  | k + 1, s =>
    match step s with
    | .next t => if t.dbg.halt = none then run k t else .next t
    | .fault r => .fault r
    | .refused r => .refused r

/-- `SingleStep()` (spec/40_fetch_decode_dispatch.md R162). -/
def singleStep (fuel : Nat) (s : State) : Out := run fuel { s with dbg := { s.dbg with stepBudget := some 1 } }

end Sys2Proof.Machine
end

