-- ==== Sys2Proof/WellFormed.lean ====
section
/-! DEFINITION. Well-formed instructions: those whose fields fail no check of Machine/Forms.lean. -/

namespace Sys2Proof

/-- The restriction an instruction's fields fail, if any; it names every constructor. -/
def Instr.restriction : Instr → Option Restriction
  | .andA1 _ => none
  | .andA2 _ => none
  | .andA3 f => f.check
  | .eorA1 _ => none
  | .eorA2 _ => none
  | .eorA3 f => f.check
  | .subA1 _ => none
  | .subA2 _ => none
  | .subA3 f => f.check
  | .rsbA1 _ => none
  | .rsbA2 _ => none
  | .rsbA3 f => f.check
  | .addA1 _ => none
  | .addA2 _ => none
  | .addA3 f => f.check
  | .adcA1 _ => none
  | .adcA2 _ => none
  | .adcA3 f => f.check
  | .sbcA1 _ => none
  | .sbcA2 _ => none
  | .sbcA3 f => f.check
  | .rscA1 _ => none
  | .rscA2 _ => none
  | .rscA3 f => f.check
  | .tstA1 _ => none
  | .tstA2 _ => none
  | .tstA3 f => f.check
  | .teqA1 _ => none
  | .teqA2 _ => none
  | .teqA3 f => f.check
  | .cmpA1 _ => none
  | .cmpA2 _ => none
  | .cmpA3 f => f.check
  | .cmnA1 _ => none
  | .cmnA2 _ => none
  | .cmnA3 f => f.check
  | .orrA1 _ => none
  | .orrA2 _ => none
  | .orrA3 f => f.check
  | .movA1 _ => none
  | .movA2 _ => none
  | .movA3 f => f.check
  | .bicA1 _ => none
  | .bicA2 _ => none
  | .bicA3 f => f.check
  | .mvnA1 _ => none
  | .mvnA2 _ => none
  | .mvnA3 f => f.check
  | .mrs f => f.check
  | .msrImm _ => none
  | .msrReg f => f.check
  | .bx _ => none
  | .mul f => f.check
  | .mla f => f.check
  | .umull f => f.check
  | .umlal f => f.check
  | .smull f => f.check
  | .smlal f => f.check
  | .swp f => f.check
  | .swpb f => f.check
  | .strhReg f => f.check
  | .strhImm f => f.check
  | .ldrhReg f => f.check
  | .ldrhImm f => f.check
  | .ldrsbReg f => f.check
  | .ldrsbImm f => f.check
  | .ldrshReg f => f.check
  | .ldrshImm f => f.check
  | .ldrImmPre f => f.check true
  | .ldrImmPost f => f.check true
  | .ldrtImm f => f.check false
  | .ldrRegPre f => f.check true
  | .ldrRegPost f => f.check true
  | .ldrtReg f => f.check false
  | .ldrbImmPre f => f.check false
  | .ldrbImmPost f => f.check false
  | .ldrbtImm f => f.check false
  | .ldrbRegPre f => f.check false
  | .ldrbRegPost f => f.check false
  | .ldrbtReg f => f.check false
  | .strImmPre f => f.check true
  | .strImmPost f => f.check true
  | .strtImm f => f.check false
  | .strRegPre f => f.check true
  | .strRegPost f => f.check true
  | .strtReg f => f.check false
  | .strbImmPre f => f.check false
  | .strbImmPost f => f.check false
  | .strbtImm f => f.check false
  | .strbRegPre f => f.check false
  | .strbRegPost f => f.check false
  | .strbtReg f => f.check false
  | .undefined _ => none
  | .ldm1 f => f.checkLoad
  | .ldm2 f => f.checkUserLoad
  | .ldm3 f => f.checkReturn
  | .stm1 f => f.checkStore
  | .stm2 f => f.checkUserStore
  | .b _ => none
  | .bl _ => none
  | .ldc f => f.check
  | .stc f => f.check
  | .cdp _ => none
  | .mrc _ => none
  | .mcr _ => none
  | .swi _ => none
  | .tLslImm _ => none
  | .tLsrImm _ => none
  | .tAsrImm _ => none
  | .tAddReg _ => none
  | .tSubReg _ => none
  | .tAddImm3 _ => none
  | .tSubImm3 _ => none
  | .tMovImm _ => none
  | .tCmpImm _ => none
  | .tAddImm8 _ => none
  | .tSubImm8 _ => none
  | .tAnd _ => none
  | .tEor _ => none
  | .tLslReg _ => none
  | .tLsrReg _ => none
  | .tAsrReg _ => none
  | .tAdc _ => none
  | .tSbc _ => none
  | .tRorReg _ => none
  | .tTst _ => none
  | .tNeg _ => none
  | .tCmp _ => none
  | .tCmn _ => none
  | .tOrr _ => none
  | .tMul f => f.checkMul
  | .tBic _ => none
  | .tMvn _ => none
  | .tAddHi f => f.check
  | .tCmpHi f => f.checkCmp
  | .tMovHi f => f.check
  | .tBx _ => none
  | .tLdrPc _ => none
  | .tStrReg _ => none
  | .tStrbReg _ => none
  | .tLdrReg _ => none
  | .tLdrbReg _ => none
  | .tStrhReg _ => none
  | .tLdrhReg _ => none
  | .tLdsb _ => none
  | .tLdsh _ => none
  | .tStrImm _ => none
  | .tLdrImm _ => none
  | .tStrbImm _ => none
  | .tLdrbImm _ => none
  | .tStrhImm _ => none
  | .tLdrhImm _ => none
  | .tStrSp _ => none
  | .tLdrSp _ => none
  | .tAddPc _ => none
  | .tAddSp _ => none
  | .tAddToSp _ => none
  | .tSubFromSp _ => none
  | .tPush f => f.check
  | .tPop f => f.check
  | .tStmia f => f.checkStore
  | .tLdmia f => f.checkLoad
  | .tBEq _ => none
  | .tBNe _ => none
  | .tBCs _ => none
  | .tBCc _ => none
  | .tBMi _ => none
  | .tBPl _ => none
  | .tBVs _ => none
  | .tBVc _ => none
  | .tBHi _ => none
  | .tBLs _ => none
  | .tBGe _ => none
  | .tBLt _ => none
  | .tBGt _ => none
  | .tBLe _ => none
  | .tSwi _ => none
  | .tB _ => none
  | .tBlHi _ => none
  | .tBlLo _ => none

/-- An instruction the spec gives a meaning in some state. -/
def Instr.WellFormed (i : Instr) : Bool := i.restriction.isNone

end Sys2Proof
end

