-- ==== Sys2Proof/Safety.lean ====
section
/-! DEFINITION. The terms the statements are written in: what a quiet or an aborting memory interface is, the access an
instruction makes, its condition, the bytes a store leaves, and the invariant of the core. -/

namespace Sys2Proof.Machine

/-! ## Frames -/

/-- The counters with N, S, I and C cycles charged (spec/20_memory.md R80 to R84). -/
def charge (n s i c : Nat) (k : Counters) : Counters :=
  { k with numN := k.numN + n, numS := k.numS + s, numI := k.numI + i, numC := k.numC + c, cost := k.cost + (n + s + i + c) }

/-- The fault flags after an access that did not abort, under the contract of spec/20_memory.md R83. -/
def clean (f : FaultFlags) : FaultFlags := { f with aborted := none }

/-- Every physical register but the listed ones holds what it held. -/
def RegsExcept (ps : List PhysReg) (s t : State) : Prop := ∀ p, p ∉ ps → readPhys t.regs p = readPhys s.regs p

/-- Every byte of memory reads as before. -/
def SameBytes (s t : State) : Prop := ∀ x : Nat, memGet t.mem x = memGet s.mem x

/-- A plain advance does not cross the top of the address space (U30). -/
def CanAdvance (s : State) : Prop := s.pc + isz s ≠ 0#32

/-! ## The memory interface at an access -/

/-- The interface keeps the contract of R83, and no region of it is met by the access, whatever its class. -/
def QuietAt (k : Access) (sz : Size) (a : Word) (s : State) : Prop :=
  s.collab.clearsAborted = true ∧ s.collab.regions.all (fun r => !(r.covers k && r.spans sz a)) = true

/-- The same for `n` words from `a` on. -/
def QuietWords (k : Access) (n : Nat) (a : Word) (s : State) : Prop :=
  ∀ i, i < n → QuietAt k .word (a + BitVec.ofNat 32 (4 * i)) s

/-- The interface keeps the contract of R83, does nothing of its own, and aborts the access, of the given class, without
letting a store land. -/
def AbortsAt (c : Cls) (k : Access) (sz : Size) (a : Word) (s : State) : Prop :=
  s.collab.clearsAborted = true ∧ s.collab.regions.all (fun r => r.script.isEmpty) = true ∧
    s.collab.regions.any (fun r => r.hit c k sz a && r.aborts && (k == .read || k == .fetch || r.blocks k)) = true

/-- The memory interface writes no memory, and does nothing else, of its own accord. -/
def Passive (s : State) : Prop :=
  s.collab.regions.all (fun r => r.script.isEmpty) = true ∧ s.collab.internal = [] ∧ s.collab.coprocCycle = []

/-- The refill at the pc meets no region (spec/40_fetch_decode_dispatch.md R170). -/
def QuietRefill (a : Word) (t : Bool) (s : State) : Prop :=
  QuietAt .fetch (if t then .half else .word) a s ∧
    QuietAt .fetch (if t then .half else .word) (a + if t then 2#32 else 4#32) s

/-- Memory after a store of one item: its bytes are the value's, every other byte is as before. -/
def Stored (sz : Size) (a v : Word) (s t : State) : Prop :=
  ∀ x : Nat, memGet t.mem x =
    if (accessBase sz a).toNat ≤ x ∧ x < (accessBase sz a).toNat + sz.bytes
    then v.extractLsb' (8 * (x - (accessBase sz a).toNat)) 8 else memGet s.mem x

/-- Memory after a store of consecutive words from `a` on: the bytes of each word are the value's, every other byte is as
before. -/
def StoredWords (a : Word) (vs : List Word) (s t : State) : Prop :=
  (∀ i v, vs[i]? = some v → ∀ k, k < 4 →
    memGet t.mem ((accessBase .word (a + BitVec.ofNat 32 (4 * i))).toNat + k) = v.extractLsb' (8 * k) 8) ∧
  (∀ x : Nat, (∀ i, i < vs.length →
      ¬ ((accessBase .word (a + BitVec.ofNat 32 (4 * i))).toNat ≤ x ∧
        x < (accessBase .word (a + BitVec.ofNat 32 (4 * i))).toNat + 4)) →
    memGet t.mem x = memGet s.mem x)

/-- The words a handler is asked for in an STC, one after another: `n` of them from number `k` on
(spec/47_arm_coprocessor_swi_undefined.md R320, R326). -/
def askedWords (cp : BitVec 4) (instr : Word) : Nat → Nat → State → List Word
  | 0, _, _ => []
  | n + 1, k, s =>
    let d := callData cp (.stcData instr k) s
    d.1 :: askedWords cp instr n (k + 1) d.2

/-- The words memory holds from `a` on. -/
def wordsAt (m : Memory) (n : Nat) (a : Word) : List Word :=
  (List.range n).map fun i => portLoad m .word (a + BitVec.ofNat 32 (4 * i))

/-! ## Instructions -/

end Sys2Proof.Machine

namespace Sys2Proof

open Sys2Proof.Machine

/-- The condition of an ARM instruction; a Thumb instruction has none (spec/40_fetch_decode_dispatch.md R175). -/
def Instr.cond : Instr → Option Cond
  | .andA1 f => some f.cond
  | .andA2 f => some f.cond
  | .andA3 f => some f.cond
  | .eorA1 f => some f.cond
  | .eorA2 f => some f.cond
  | .eorA3 f => some f.cond
  | .subA1 f => some f.cond
  | .subA2 f => some f.cond
  | .subA3 f => some f.cond
  | .rsbA1 f => some f.cond
  | .rsbA2 f => some f.cond
  | .rsbA3 f => some f.cond
  | .addA1 f => some f.cond
  | .addA2 f => some f.cond
  | .addA3 f => some f.cond
  | .adcA1 f => some f.cond
  | .adcA2 f => some f.cond
  | .adcA3 f => some f.cond
  | .sbcA1 f => some f.cond
  | .sbcA2 f => some f.cond
  | .sbcA3 f => some f.cond
  | .rscA1 f => some f.cond
  | .rscA2 f => some f.cond
  | .rscA3 f => some f.cond
  | .tstA1 f => some f.cond
  | .tstA2 f => some f.cond
  | .tstA3 f => some f.cond
  | .teqA1 f => some f.cond
  | .teqA2 f => some f.cond
  | .teqA3 f => some f.cond
  | .cmpA1 f => some f.cond
  | .cmpA2 f => some f.cond
  | .cmpA3 f => some f.cond
  | .cmnA1 f => some f.cond
  | .cmnA2 f => some f.cond
  | .cmnA3 f => some f.cond
  | .orrA1 f => some f.cond
  | .orrA2 f => some f.cond
  | .orrA3 f => some f.cond
  | .movA1 f => some f.cond
  | .movA2 f => some f.cond
  | .movA3 f => some f.cond
  | .bicA1 f => some f.cond
  | .bicA2 f => some f.cond
  | .bicA3 f => some f.cond
  | .mvnA1 f => some f.cond
  | .mvnA2 f => some f.cond
  | .mvnA3 f => some f.cond
  | .mrs f => some f.cond
  | .msrImm f => some f.cond
  | .msrReg f => some f.cond
  | .bx f => some f.cond
  | .mul f => some f.cond
  | .mla f => some f.cond
  | .umull f => some f.cond
  | .umlal f => some f.cond
  | .smull f => some f.cond
  | .smlal f => some f.cond
  | .swp f => some f.cond
  | .swpb f => some f.cond
  | .strhReg f => some f.cond
  | .strhImm f => some f.cond
  | .ldrhReg f => some f.cond
  | .ldrhImm f => some f.cond
  | .ldrsbReg f => some f.cond
  | .ldrsbImm f => some f.cond
  | .ldrshReg f => some f.cond
  | .ldrshImm f => some f.cond
  | .ldrImmPre f => some f.cond
  | .ldrImmPost f => some f.cond
  | .ldrtImm f => some f.cond
  | .ldrRegPre f => some f.cond
  | .ldrRegPost f => some f.cond
  | .ldrtReg f => some f.cond
  | .ldrbImmPre f => some f.cond
  | .ldrbImmPost f => some f.cond
  | .ldrbtImm f => some f.cond
  | .ldrbRegPre f => some f.cond
  | .ldrbRegPost f => some f.cond
  | .ldrbtReg f => some f.cond
  | .strImmPre f => some f.cond
  | .strImmPost f => some f.cond
  | .strtImm f => some f.cond
  | .strRegPre f => some f.cond
  | .strRegPost f => some f.cond
  | .strtReg f => some f.cond
  | .strbImmPre f => some f.cond
  | .strbImmPost f => some f.cond
  | .strbtImm f => some f.cond
  | .strbRegPre f => some f.cond
  | .strbRegPost f => some f.cond
  | .strbtReg f => some f.cond
  | .undefined f => some f.cond
  | .ldm1 f => some f.cond
  | .ldm2 f => some f.cond
  | .ldm3 f => some f.cond
  | .stm1 f => some f.cond
  | .stm2 f => some f.cond
  | .b f => some f.cond
  | .bl f => some f.cond
  | .ldc f => some f.cond
  | .stc f => some f.cond
  | .cdp f => some f.cond
  | .mrc f => some f.cond
  | .mcr f => some f.cond
  | .swi f => some f.cond
  | .tLslImm _ => none
  | .tLsrImm _ => none
  | .tAsrImm _ => none
  | .tAddReg _ => none
  | .tSubReg _ => none
  | .tAddImm3 _ => none
  | .tSubImm3 _ => none
  | .tMovImm _ => none
  | .tCmpImm _ => none
  | .tAddImm8 _ => none
  | .tSubImm8 _ => none
  | .tAnd _ => none
  | .tEor _ => none
  | .tLslReg _ => none
  | .tLsrReg _ => none
  | .tAsrReg _ => none
  | .tAdc _ => none
  | .tSbc _ => none
  | .tRorReg _ => none
  | .tTst _ => none
  | .tNeg _ => none
  | .tCmp _ => none
  | .tCmn _ => none
  | .tOrr _ => none
  | .tMul _ => none
  | .tBic _ => none
  | .tMvn _ => none
  | .tAddHi _ => none
  | .tCmpHi _ => none
  | .tMovHi _ => none
  | .tBx _ => none
  | .tLdrPc _ => none
  | .tStrReg _ => none
  | .tStrbReg _ => none
  | .tLdrReg _ => none
  | .tLdrbReg _ => none
  | .tStrhReg _ => none
  | .tLdrhReg _ => none
  | .tLdsb _ => none
  | .tLdsh _ => none
  | .tStrImm _ => none
  | .tLdrImm _ => none
  | .tStrbImm _ => none
  | .tLdrbImm _ => none
  | .tStrhImm _ => none
  | .tLdrhImm _ => none
  | .tStrSp _ => none
  | .tLdrSp _ => none
  | .tAddPc _ => none
  | .tAddSp _ => none
  | .tAddToSp _ => none
  | .tSubFromSp _ => none
  | .tPush _ => none
  | .tPop _ => none
  | .tStmia _ => none
  | .tLdmia _ => none
  | .tBEq _ => none
  | .tBNe _ => none
  | .tBCs _ => none
  | .tBCc _ => none
  | .tBMi _ => none
  | .tBPl _ => none
  | .tBVs _ => none
  | .tBVc _ => none
  | .tBHi _ => none
  | .tBLs _ => none
  | .tBGe _ => none
  | .tBLt _ => none
  | .tBGt _ => none
  | .tBLe _ => none
  | .tSwi _ => none
  | .tB _ => none
  | .tBlHi _ => none
  | .tBlLo _ => none

/-- The single data access an instruction makes, if it is a single transfer or a swap
(spec/45_arm_load_store.md, spec/49_thumb_memory_branch.md): its kind, its width and its address. -/
def Instr.access : Instr → State → Option (Access × Size × Word)
  | .andA1 _, _ => none
  | .andA2 _, _ => none
  | .andA3 _, _ => none
  | .eorA1 _, _ => none
  | .eorA2 _, _ => none
  | .eorA3 _, _ => none
  | .subA1 _, _ => none
  | .subA2 _, _ => none
  | .subA3 _, _ => none
  | .rsbA1 _, _ => none
  | .rsbA2 _, _ => none
  | .rsbA3 _, _ => none
  | .addA1 _, _ => none
  | .addA2 _, _ => none
  | .addA3 _, _ => none
  | .adcA1 _, _ => none
  | .adcA2 _, _ => none
  | .adcA3 _, _ => none
  | .sbcA1 _, _ => none
  | .sbcA2 _, _ => none
  | .sbcA3 _, _ => none
  | .rscA1 _, _ => none
  | .rscA2 _, _ => none
  | .rscA3 _, _ => none
  | .tstA1 _, _ => none
  | .tstA2 _, _ => none
  | .tstA3 _, _ => none
  | .teqA1 _, _ => none
  | .teqA2 _, _ => none
  | .teqA3 _, _ => none
  | .cmpA1 _, _ => none
  | .cmpA2 _, _ => none
  | .cmpA3 _, _ => none
  | .cmnA1 _, _ => none
  | .cmnA2 _, _ => none
  | .cmnA3 _, _ => none
  | .orrA1 _, _ => none
  | .orrA2 _, _ => none
  | .orrA3 _, _ => none
  | .movA1 _, _ => none
  | .movA2 _, _ => none
  | .movA3 _, _ => none
  | .bicA1 _, _ => none
  | .bicA2 _, _ => none
  | .bicA3 _, _ => none
  | .mvnA1 _, _ => none
  | .mvnA2 _, _ => none
  | .mvnA3 _, _ => none
  | .mrs _, _ => none
  | .msrImm _, _ => none
  | .msrReg _, _ => none
  | .bx _, _ => none
  | .mul _, _ => none
  | .mla _, _ => none
  | .umull _, _ => none
  | .umlal _, _ => none
  | .smull _, _ => none
  | .smlal _, _ => none
  | .swp f, s => some (.swap, .word, readReg s f.rn)
  | .swpb f, s => some (.swap, .byte, readReg s f.rn)
  | .strhReg f, s => some (.write, .half, (addrHwReg f s).addr)
  | .strhImm f, s => some (.write, .half, (addrHwImm f s).addr)
  | .ldrhReg f, s => some (.read, .half, (addrHwReg f s).addr)
  | .ldrhImm f, s => some (.read, .half, (addrHwImm f s).addr)
  | .ldrsbReg f, s => some (.read, .byte, (addrHwReg f s).addr)
  | .ldrsbImm f, s => some (.read, .byte, (addrHwImm f s).addr)
  | .ldrshReg f, s => some (.read, .half, (addrHwReg f s).addr)
  | .ldrshImm f, s => some (.read, .half, (addrHwImm f s).addr)
  | .ldrImmPre f, s => some (.read, .word, (addrImmPre f s).addr)
  | .ldrImmPost f, s => some (.read, .word, (addrImmPost f s).addr)
  | .ldrtImm f, s => some (.read, .word, (addrImmPost f s).addr)
  | .ldrRegPre f, s => some (.read, .word, (addrRegPre f s).addr)
  | .ldrRegPost f, s => some (.read, .word, (addrRegPost f s).addr)
  | .ldrtReg f, s => some (.read, .word, (addrRegPost f s).addr)
  | .ldrbImmPre f, s => some (.read, .byte, (addrImmPre f s).addr)
  | .ldrbImmPost f, s => some (.read, .byte, (addrImmPost f s).addr)
  | .ldrbtImm f, s => some (.read, .byte, (addrImmPost f s).addr)
  | .ldrbRegPre f, s => some (.read, .byte, (addrRegPre f s).addr)
  | .ldrbRegPost f, s => some (.read, .byte, (addrRegPost f s).addr)
  | .ldrbtReg f, s => some (.read, .byte, (addrRegPost f s).addr)
  | .strImmPre f, s => some (.write, .word, (addrImmPre f s).addr)
  | .strImmPost f, s => some (.write, .word, (addrImmPost f s).addr)
  | .strtImm f, s => some (.write, .word, (addrImmPost f s).addr)
  | .strRegPre f, s => some (.write, .word, (addrRegPre f s).addr)
  | .strRegPost f, s => some (.write, .word, (addrRegPost f s).addr)
  | .strtReg f, s => some (.write, .word, (addrRegPost f s).addr)
  | .strbImmPre f, s => some (.write, .byte, (addrImmPre f s).addr)
  | .strbImmPost f, s => some (.write, .byte, (addrImmPost f s).addr)
  | .strbtImm f, s => some (.write, .byte, (addrImmPost f s).addr)
  | .strbRegPre f, s => some (.write, .byte, (addrRegPre f s).addr)
  | .strbRegPost f, s => some (.write, .byte, (addrRegPost f s).addr)
  | .strbtReg f, s => some (.write, .byte, (addrRegPost f s).addr)
  | .undefined _, _ => none
  | .ldm1 _, _ => none
  | .ldm2 _, _ => none
  | .ldm3 _, _ => none
  | .stm1 _, _ => none
  | .stm2 _, _ => none
  | .b _, _ => none
  | .bl _, _ => none
  | .ldc _, _ => none
  | .stc _, _ => none
  | .cdp _, _ => none
  | .mrc _, _ => none
  | .mcr _, _ => none
  | .swi _, _ => none
  | .tLslImm _, _ => none
  | .tLsrImm _, _ => none
  | .tAsrImm _, _ => none
  | .tAddReg _, _ => none
  | .tSubReg _, _ => none
  | .tAddImm3 _, _ => none
  | .tSubImm3 _, _ => none
  | .tMovImm _, _ => none
  | .tCmpImm _, _ => none
  | .tAddImm8 _, _ => none
  | .tSubImm8 _, _ => none
  | .tAnd _, _ => none
  | .tEor _, _ => none
  | .tLslReg _, _ => none
  | .tLsrReg _, _ => none
  | .tAsrReg _, _ => none
  | .tAdc _, _ => none
  | .tSbc _, _ => none
  | .tRorReg _, _ => none
  | .tTst _, _ => none
  | .tNeg _, _ => none
  | .tCmp _, _ => none
  | .tCmn _, _ => none
  | .tOrr _, _ => none
  | .tMul _, _ => none
  | .tBic _, _ => none
  | .tMvn _, _ => none
  | .tAddHi _, _ => none
  | .tCmpHi _, _ => none
  | .tMovHi _, _ => none
  | .tBx _, _ => none
  | .tLdrPc f, s => some (.read, .word, addrPc f s)
  | .tStrReg f, s => some (.write, .word, addrT7 f s)
  | .tStrbReg f, s => some (.write, .byte, addrT7 f s)
  | .tLdrReg f, s => some (.read, .word, addrT7 f s)
  | .tLdrbReg f, s => some (.read, .byte, addrT7 f s)
  | .tStrhReg f, s => some (.write, .half, addrT7 f s)
  | .tLdrhReg f, s => some (.read, .half, addrT7 f s)
  | .tLdsb f, s => some (.read, .byte, addrT7 f s)
  | .tLdsh f, s => some (.read, .half, addrT7 f s)
  | .tStrImm f, s => some (.write, .word, addrT9 2 f s)
  | .tLdrImm f, s => some (.read, .word, addrT9 2 f s)
  | .tStrbImm f, s => some (.write, .byte, addrT9 0 f s)
  | .tLdrbImm f, s => some (.read, .byte, addrT9 0 f s)
  | .tStrhImm f, s => some (.write, .half, addrT9 1 f s)
  | .tLdrhImm f, s => some (.read, .half, addrT9 1 f s)
  | .tStrSp f, s => some (.write, .word, addrSp f s)
  | .tLdrSp f, s => some (.read, .word, addrSp f s)
  | .tAddPc _, _ => none
  | .tAddSp _, _ => none
  | .tAddToSp _, _ => none
  | .tSubFromSp _, _ => none
  | .tPush _, _ => none
  | .tPop _, _ => none
  | .tStmia _, _ => none
  | .tLdmia _, _ => none
  | .tBEq _, _ => none
  | .tBNe _, _ => none
  | .tBCs _, _ => none
  | .tBCc _, _ => none
  | .tBMi _, _ => none
  | .tBPl _, _ => none
  | .tBVs _, _ => none
  | .tBVc _, _ => none
  | .tBHi _, _ => none
  | .tBLs _, _ => none
  | .tBGe _, _ => none
  | .tBLt _, _ => none
  | .tBGt _, _ => none
  | .tBLe _, _ => none
  | .tSwi _, _ => none
  | .tB _, _ => none
  | .tBlHi _, _ => none
  | .tBlLo _, _ => none

/-- What a single-transfer or swap form needs to be executed normally: its fields, its condition and its alignment. -/
def Instr.Ready (i : Instr) (s : State) : Prop :=
  i.restriction = none ∧ (∀ c, i.cond = some c → conditionPassed c s.cpsr = true)

end Sys2Proof

namespace Sys2Proof.Machine

/-! ## The invariant (spec/10_state.md R57, spec/70_reset_and_hazards.md R541) -/

/-- Events are sorted by trigger time, their handles are distinct and have all been handed out (R53, R57 (d)). -/
def eventsOk (q : Scheduler) : Bool :=
  decide (q.events.Pairwise fun a b => a.trigger ≤ b.trigger ∧ a.handle ≠ b.handle) &&
    q.events.all fun n => decide (n.handle < q.nextHandle)

/-- The clock and the cost waiting are the sum of the cycles counted, and no F cycle is counted (R541). -/
def countersOk (k : Counters) : Bool :=
  decide (k.now + k.cost = k.numS + k.numN + k.numI + k.numC + k.numF) && decide (k.numF = 0)

/-- While the slots are valid, the latest fetch was from pc + isz (R57 (f)), and Thumb slots hold halfwords (R47). -/
def slotsOk (s : State) : Bool :=
  !s.pipe.valid ||
    (s.pipe.lastFetch == { valid := true, addr := s.pc + isz s, size := isz s } &&
      (!s.cpsr.t || (decide (s.pipe.decoded.word.toNat < 65536) && decide (s.pipe.loaded.word.toNat < 65536))))

/-- The invariant: memory is canonical, the pc is aligned for the instruction set (R57 (c)), the event queue, the counters
and the slots are as the rules say. That CPSR.M is one of the seven modes (R57 (a), (b)) holds by its type. -/
def State.Inv (s : State) : Bool :=
  s.mem.wf && aligned s.cpsr.t s.pc && eventsOk s.sched && countersOk s.ctr && slotsOk s

end Sys2Proof.Machine

namespace Sys2Proof.Machine

/-! ## The terms the results are written in -/

/-- The state after a plain advance of the pc (spec/10_state.md R29). -/
def forward (s : State) : State := { s with pc := s.pc + isz s }

/-- The state with N, S, I and C cycles charged. -/
def spend (n s i c : Nat) (x : State) : State := { x with ctr := charge n s i c x.ctr }

/-- The state after an access that did not abort (spec/20_memory.md R83). -/
def settled (x : State) : State := { x with fault := clean x.fault }

/-- N and Z of a result, and C and V as given, when `on` says so; else the flags as they are
(spec/41_shifter_alu_flags.md R206, R209). -/
def withFlags (on : Bool) (r : Word) (c v : Bool) (x : State) : State :=
  if on then { x with cpsr := { x.cpsr with n := r.msb, z := decide (r = 0#32), c, v } } else x

/-- An exact result that no signed word holds: the signed overflow. -/
def overflows (x : Int) : Bool := decide (x < -2147483648 ∨ 2147483647 < x)

/-- The multiplier cycles of spec/43_arm_multiply.md R261: whether the bits of Rs from `k` up are all zeros, or, for the
signed rule, all ones, is read off its value. -/
def arrayCycles (signed : Bool) (t : CycleTable) (v : Word) : Nat :=
  let short (k : Nat) : Bool := decide (v.toNat < 2 ^ k) || (signed && decide (4294967296 - 2 ^ k ≤ v.toNat))
  if short 8 then t.m1 else if short 16 then t.m2 else if short 24 then t.m3 else t.m4

/-- The state after the entry of an exception other than Reset (spec/60_exceptions.md R470): what is saved, the status
and the branch to the vector. -/
def entered (m : Mode) (vector ret : Word) (f : Bool) (s : State) : State :=
  branchTo vector { s with
    regs := writePhys s.regs (.lr m.bank) ret
    spsr := s.spsr.set m.bank s.cpsr.word
    cpsr := { s.cpsr with m, t := false, i := true, f } }

/-- What an operation with destination r15 does (spec/42_arm_data_processing.md R230, spec/41_shifter_alu_flags.md R210):
with S = 0 a pc write, with S = 1 the exception return. A target that is not aligned for the instruction set in force after
it is refused (U10). -/
def toPc (sBit : Bool) (r : Word) (s : State) : Out :=
  if sBit then
    (if s.cpsr.m.hasSpsr then
      match psrOfWord s.spsr[s.cpsr.m.bank] with
      | none => .fault .invalidMode
      | some p => if aligned p.t r then .next (branchTo r { s with cpsr := p }) else .refused .misalignedPc
    else .fault .invalidMode)
  else if aligned s.cpsr.t r then .next (branchTo r s) else .refused .misalignedPc

/-! ## Register lists -/

/-- How many registers below `r` a list names. -/
def countBelow (list : BitVec n) (r : Nat) : Nat := (List.range r).countP fun i => list.getLsbD i

/-- The lowest address of a block transfer of `n` words (spec/46_arm_block_transfer.md R310). -/
def blockStart (p u : Bool) (base : Word) (n : Nat) : Word :=
  let size := BitVec.ofNat 32 (4 * n)
  if u then (if p then base + 4#32 else base) else if p then base - size else base - size + 4#32

/-- The address of the word of register `r` in a block transfer from `a` on. -/
def wordOf (list : BitVec n) (a : Word) (r : Nat) : Word := a + BitVec.ofNat 32 (4 * countBelow list r)

/-- Memory after a store of the listed registers from `a` on: the bytes of each register's word are its value's, and every
byte outside the words stored is as before. -/
def StoredList (list : BitVec n) (a : Word) (value : Nat → Word) (s t : State) : Prop :=
  (∀ r, list.getLsbD r = true → ∀ k, k < 4 →
    memGet t.mem ((accessBase .word (wordOf list a r)).toNat + k) = (value r).extractLsb' (8 * k) 8) ∧
  (∀ x : Nat, (∀ i, i < countBelow list n →
      ¬ ((accessBase .word (a + BitVec.ofNat 32 (4 * i))).toNat ≤ x ∧
        x < (accessBase .word (a + BitVec.ofNat 32 (4 * i))).toNat + 4)) →
    memGet t.mem x = memGet s.mem x)

/-- The words of the listed registers that come before word `j` of a store from `a` on hold the registers' values. -/
def StoredBefore (list : BitVec n) (a : Word) (j : Nat) (value : Nat → Word) (t : State) : Prop :=
  ∀ r, list.getLsbD r = true → countBelow list r < j → ∀ k, k < 4 →
    memGet t.mem ((accessBase .word (wordOf list a r)).toNat + k) = (value r).extractLsb' (8 * k) 8

/-- The registers of PUSH: r14 too when R = 1 (spec/49_thumb_memory_branch.md R418). -/
def pushList (f : T14) : BitVec 16 := f.list.setWidth 16 ||| (if f.r then 0x4000#16 else 0#16)

/-- The registers of POP: r15 too when R = 1 (spec/49_thumb_memory_branch.md R419). -/
def popList (f : T14) : BitVec 16 := f.list.setWidth 16 ||| (if f.r then 0x8000#16 else 0#16)

/-- The registers of LDM(3): r15 too. -/
def returnList (f : BlockUser) : BitVec 16 := f.list.setWidth 16 ||| 0x8000#16

/-! ## The instructions of one shape, one row for each -/

/-- A logical operation of two operands in its three formats. -/
structure LogicalRow where
  a1 : A1 → Instr
  a2 : A2 → Instr
  a3 : A3 → Instr
  value : Word → Word → Word

/-- AND, EOR, ORR, BIC (spec/42_arm_data_processing.md R231, R232, R243, R245). -/
def logicalRows : List LogicalRow := [
  ⟨.andA1, .andA2, .andA3, fun a b => a &&& b⟩,
  ⟨.eorA1, .eorA2, .eorA3, fun a b => a ^^^ b⟩,
  ⟨.orrA1, .orrA2, .orrA3, fun a b => a ||| b⟩,
  ⟨.bicA1, .bicA2, .bicA3, fun a b => a &&& ~~~b⟩]

/-- MOV and MVN in their three formats. -/
structure MoveRow where
  a1 : A1Mov → Instr
  a2 : A2Mov → Instr
  a3 : A3Mov → Instr
  value : Word → Word

/-- MOV, MVN (spec/42_arm_data_processing.md R244, R246). -/
def moveRows : List MoveRow := [
  ⟨.movA1, .movA2, .movA3, fun b => b⟩,
  ⟨.mvnA1, .mvnA2, .mvnA3, fun b => ~~~b⟩]

/-- An arithmetic operation in its three formats: the value, the carry, and the exact signed result, from the two operands
and the C flag. -/
structure ArithRow where
  a1 : A1 → Instr
  a2 : A2 → Instr
  a3 : A3 → Instr
  value : Word → Word → Bool → Word
  carry : Word → Word → Bool → Bool
  exact : Word → Word → Bool → Int

/-- SUB, RSB, ADD, ADC, SBC, RSC (spec/42_arm_data_processing.md R233 to R238): C is the unsigned carry of an addition and
NOT borrow of a subtraction. -/
def arithRows : List ArithRow := [
  ⟨.subA1, .subA2, .subA3, fun a b _ => a - b, fun a b _ => decide (b.toNat ≤ a.toNat), fun a b _ => a.toInt - b.toInt⟩,
  ⟨.rsbA1, .rsbA2, .rsbA3, fun a b _ => b - a, fun a b _ => decide (a.toNat ≤ b.toNat), fun a b _ => b.toInt - a.toInt⟩,
  ⟨.addA1, .addA2, .addA3, fun a b _ => a + b, fun a b _ => decide (4294967296 ≤ a.toNat + b.toNat),
    fun a b _ => a.toInt + b.toInt⟩,
  ⟨.adcA1, .adcA2, .adcA3, fun a b c => a + b + BitVec.ofNat 32 c.toNat,
    fun a b c => decide (4294967296 ≤ a.toNat + b.toNat + c.toNat), fun a b c => a.toInt + b.toInt + c.toNat⟩,
  ⟨.sbcA1, .sbcA2, .sbcA3, fun a b c => a - b - BitVec.ofNat 32 (!c).toNat,
    fun a b c => decide (b.toNat + (!c).toNat ≤ a.toNat), fun a b c => a.toInt - b.toInt - (!c).toNat⟩,
  ⟨.rscA1, .rscA2, .rscA3, fun a b c => b - a - BitVec.ofNat 32 (!c).toNat,
    fun a b c => decide (a.toNat + (!c).toNat ≤ b.toNat), fun a b c => b.toInt - a.toInt - (!c).toNat⟩]

/-- TST and TEQ in their three formats. -/
structure TestRow where
  a1 : A1Cmp → Instr
  a2 : A2Cmp → Instr
  a3 : A3Cmp → Instr
  value : Word → Word → Word

/-- TST, TEQ (spec/42_arm_data_processing.md R239, R240). -/
def testRows : List TestRow := [
  ⟨.tstA1, .tstA2, .tstA3, fun a b => a &&& b⟩,
  ⟨.teqA1, .teqA2, .teqA3, fun a b => a ^^^ b⟩]

/-- CMP and CMN in their three formats. -/
structure CompareRow where
  a1 : A1Cmp → Instr
  a2 : A2Cmp → Instr
  a3 : A3Cmp → Instr
  value : Word → Word → Word
  carry : Word → Word → Bool
  exact : Word → Word → Int

/-- CMP, CMN (spec/42_arm_data_processing.md R241, R242). -/
def compareRows : List CompareRow := [
  ⟨.cmpA1, .cmpA2, .cmpA3, fun a b => a - b, fun a b => decide (b.toNat ≤ a.toNat), fun a b => a.toInt - b.toInt⟩,
  ⟨.cmnA1, .cmnA2, .cmnA3, fun a b => a + b, fun a b => decide (4294967296 ≤ a.toNat + b.toNat),
    fun a b => a.toInt + b.toInt⟩]

/-- LDR, LDRB with P = 1 and an immediate offset (spec/45_arm_load_store.md R285, R286). -/
def loadsImmPre : List ((LsImmPre → Instr) × LoadOp) := [(.ldrImmPre, .word), (.ldrbImmPre, .byte)]

/-- LDR, LDRT, LDRB, LDRBT, post-indexed by an immediate (spec/45_arm_load_store.md R285, R286, R289, R290). -/
def loadsImmPost : List ((LsImmPost → Instr) × LoadOp) :=
  [(.ldrImmPost, .word), (.ldrtImm, .word), (.ldrbImmPost, .byte), (.ldrbtImm, .byte)]

/-- LDR, LDRB with P = 1 and a register offset. -/
def loadsRegPre : List ((LsRegPre → Instr) × LoadOp) := [(.ldrRegPre, .word), (.ldrbRegPre, .byte)]

/-- LDR, LDRT, LDRB, LDRBT, post-indexed by a register. -/
def loadsRegPost : List ((LsRegPost → Instr) × LoadOp) :=
  [(.ldrRegPost, .word), (.ldrtReg, .word), (.ldrbRegPost, .byte), (.ldrbtReg, .byte)]

/-- LDRH, LDRSB, LDRSH with a register offset (spec/45_arm_load_store.md R293 to R295). -/
def loadsHwReg : List ((HwReg → Instr) × LoadOp) :=
  [(.ldrhReg, .half), (.ldrsbReg, .signedByte), (.ldrshReg, .signedHalf)]

/-- LDRH, LDRSB, LDRSH with an immediate offset. -/
def loadsHwImm : List ((HwImm → Instr) × LoadOp) :=
  [(.ldrhImm, .half), (.ldrsbImm, .signedByte), (.ldrshImm, .signedHalf)]

/-- STR, STRB with P = 1 and an immediate offset (spec/45_arm_load_store.md R287, R288). -/
def storesImmPre : List ((LsImmPre → Instr) × Size) := [(.strImmPre, .word), (.strbImmPre, .byte)]

/-- STR, STRT, STRB, STRBT, post-indexed by an immediate (spec/45_arm_load_store.md R287, R288, R291, R292). -/
def storesImmPost : List ((LsImmPost → Instr) × Size) :=
  [(.strImmPost, .word), (.strtImm, .word), (.strbImmPost, .byte), (.strbtImm, .byte)]

/-- STR, STRB with P = 1 and a register offset. -/
def storesRegPre : List ((LsRegPre → Instr) × Size) := [(.strRegPre, .word), (.strbRegPre, .byte)]

/-- STR, STRT, STRB, STRBT, post-indexed by a register. -/
def storesRegPost : List ((LsRegPost → Instr) × Size) :=
  [(.strRegPost, .word), (.strtReg, .word), (.strbRegPost, .byte), (.strbtReg, .byte)]

/-- The Thumb loads of formats 7 and 8 (spec/49_thumb_memory_branch.md R404, R405, R407 to R409). -/
def loadsT7 : List ((T7 → Instr) × LoadOp) :=
  [(.tLdrReg, .word), (.tLdrbReg, .byte), (.tLdrhReg, .half), (.tLdsb, .signedByte), (.tLdsh, .signedHalf)]

/-- The Thumb loads of formats 9 and 10, with the scale of the offset (spec/49_thumb_memory_branch.md R411, R413, R415). -/
def loadsT9 : List ((T9 → Instr) × LoadOp × Nat) :=
  [(.tLdrImm, .word, 4), (.tLdrbImm, .byte, 1), (.tLdrhImm, .half, 2)]

/-- The Thumb stores of formats 7 and 8 (spec/49_thumb_memory_branch.md R402, R403, R406). -/
def storesT7 : List ((T7 → Instr) × Size) := [(.tStrReg, .word), (.tStrbReg, .byte), (.tStrhReg, .half)]

/-- The Thumb stores of formats 9 and 10, with the scale of the offset (spec/49_thumb_memory_branch.md R410, R412, R414). -/
def storesT9 : List ((T9 → Instr) × Size × Nat) :=
  [(.tStrImm, .word, 4), (.tStrbImm, .byte, 1), (.tStrhImm, .half, 2)]

/-- The fourteen conditional branches (spec/49_thumb_memory_branch.md R430). -/
def condBranches : List ((T16 → Instr) × Cond) := [
  (.tBEq, .eq), (.tBNe, .ne), (.tBCs, .cs), (.tBCc, .cc), (.tBMi, .mi), (.tBPl, .pl), (.tBVs, .vs),
  (.tBVc, .vc), (.tBHi, .hi), (.tBLs, .ls), (.tBGe, .ge), (.tBLt, .lt), (.tBGt, .gt), (.tBLe, .le)]

/-- Both halves of the table of data-processing operations with two operands, formats A1 and A2, and their values. -/
def valueRows : List ((A1 → Instr) × (A2 → Instr) × (Word → Word → Bool → Word)) :=
  (logicalRows.map fun r => (r.a1, r.a2, fun a b _ => r.value a b)) ++ arithRows.map fun r => (r.a1, r.a2, r.value)

end Sys2Proof.Machine

namespace Sys2Proof

open Sys2Proof.Machine

/-- The forms that write a flag (spec/10_state.md R36, spec/41_shifter_alu_flags.md R221): a copy of the SPSR is one. -/
def Instr.writesFlags : Instr → Bool
  | .andA1 f => f.s
  | .andA2 f => f.s
  | .andA3 f => f.s
  | .eorA1 f => f.s
  | .eorA2 f => f.s
  | .eorA3 f => f.s
  | .subA1 f => f.s
  | .subA2 f => f.s
  | .subA3 f => f.s
  | .rsbA1 f => f.s
  | .rsbA2 f => f.s
  | .rsbA3 f => f.s
  | .addA1 f => f.s
  | .addA2 f => f.s
  | .addA3 f => f.s
  | .adcA1 f => f.s
  | .adcA2 f => f.s
  | .adcA3 f => f.s
  | .sbcA1 f => f.s
  | .sbcA2 f => f.s
  | .sbcA3 f => f.s
  | .rscA1 f => f.s
  | .rscA2 f => f.s
  | .rscA3 f => f.s
  | .tstA1 _ => true
  | .tstA2 _ => true
  | .tstA3 _ => true
  | .teqA1 _ => true
  | .teqA2 _ => true
  | .teqA3 _ => true
  | .cmpA1 _ => true
  | .cmpA2 _ => true
  | .cmpA3 _ => true
  | .cmnA1 _ => true
  | .cmnA2 _ => true
  | .cmnA3 _ => true
  | .orrA1 f => f.s
  | .orrA2 f => f.s
  | .orrA3 f => f.s
  | .movA1 f => f.s
  | .movA2 f => f.s
  | .movA3 f => f.s
  | .bicA1 f => f.s
  | .bicA2 f => f.s
  | .bicA3 f => f.s
  | .mvnA1 f => f.s
  | .mvnA2 f => f.s
  | .mvnA3 f => f.s
  | .mrs _ => false
  | .msrImm f => !f.r && f.mask.getLsbD 3
  | .msrReg f => !f.r && f.mask.getLsbD 3
  | .bx _ => false
  | .mul f => f.s
  | .mla f => f.s
  | .umull f => f.s
  | .umlal f => f.s
  | .smull f => f.s
  | .smlal f => f.s
  | .swp _ => false
  | .swpb _ => false
  | .strhReg _ => false
  | .strhImm _ => false
  | .ldrhReg _ => false
  | .ldrhImm _ => false
  | .ldrsbReg _ => false
  | .ldrsbImm _ => false
  | .ldrshReg _ => false
  | .ldrshImm _ => false
  | .ldrImmPre _ => false
  | .ldrImmPost _ => false
  | .ldrtImm _ => false
  | .ldrRegPre _ => false
  | .ldrRegPost _ => false
  | .ldrtReg _ => false
  | .ldrbImmPre _ => false
  | .ldrbImmPost _ => false
  | .ldrbtImm _ => false
  | .ldrbRegPre _ => false
  | .ldrbRegPost _ => false
  | .ldrbtReg _ => false
  | .strImmPre _ => false
  | .strImmPost _ => false
  | .strtImm _ => false
  | .strRegPre _ => false
  | .strRegPost _ => false
  | .strtReg _ => false
  | .strbImmPre _ => false
  | .strbImmPost _ => false
  | .strbtImm _ => false
  | .strbRegPre _ => false
  | .strbRegPost _ => false
  | .strbtReg _ => false
  | .undefined _ => false
  | .ldm1 _ => false
  | .ldm2 _ => false
  | .ldm3 _ => true
  | .stm1 _ => false
  | .stm2 _ => false
  | .b _ => false
  | .bl _ => false
  | .ldc _ => false
  | .stc _ => false
  | .cdp _ => false
  | .mrc f => isPc f.rd
  | .mcr _ => false
  | .swi _ => false
  | .tLslImm _ => true
  | .tLsrImm _ => true
  | .tAsrImm _ => true
  | .tAddReg _ => true
  | .tSubReg _ => true
  | .tAddImm3 _ => true
  | .tSubImm3 _ => true
  | .tMovImm _ => true
  | .tCmpImm _ => true
  | .tAddImm8 _ => true
  | .tSubImm8 _ => true
  | .tAnd _ => true
  | .tEor _ => true
  | .tLslReg _ => true
  | .tLsrReg _ => true
  | .tAsrReg _ => true
  | .tAdc _ => true
  | .tSbc _ => true
  | .tRorReg _ => true
  | .tTst _ => true
  | .tNeg _ => true
  | .tCmp _ => true
  | .tCmn _ => true
  | .tOrr _ => true
  | .tMul _ => true
  | .tBic _ => true
  | .tMvn _ => true
  | .tAddHi _ => false
  | .tCmpHi _ => true
  | .tMovHi _ => false
  | .tBx _ => false
  | .tLdrPc _ => false
  | .tStrReg _ => false
  | .tStrbReg _ => false
  | .tLdrReg _ => false
  | .tLdrbReg _ => false
  | .tStrhReg _ => false
  | .tLdrhReg _ => false
  | .tLdsb _ => false
  | .tLdsh _ => false
  | .tStrImm _ => false
  | .tLdrImm _ => false
  | .tStrbImm _ => false
  | .tLdrbImm _ => false
  | .tStrhImm _ => false
  | .tLdrhImm _ => false
  | .tStrSp _ => false
  | .tLdrSp _ => false
  | .tAddPc _ => false
  | .tAddSp _ => false
  | .tAddToSp _ => false
  | .tSubFromSp _ => false
  | .tPush _ => false
  | .tPop _ => false
  | .tStmia _ => false
  | .tLdmia _ => false
  | .tBEq _ => false
  | .tBNe _ => false
  | .tBCs _ => false
  | .tBCc _ => false
  | .tBMi _ => false
  | .tBPl _ => false
  | .tBVs _ => false
  | .tBVc _ => false
  | .tBHi _ => false
  | .tBLs _ => false
  | .tBGe _ => false
  | .tBLt _ => false
  | .tBGt _ => false
  | .tBLe _ => false
  | .tSwi _ => false
  | .tB _ => false
  | .tBlHi _ => false
  | .tBlLo _ => false

/-- The instructions that store to memory (spec/20_memory.md R78). -/
def Instr.stores : Instr → Bool
  | .andA1 _ => false
  | .andA2 _ => false
  | .andA3 _ => false
  | .eorA1 _ => false
  | .eorA2 _ => false
  | .eorA3 _ => false
  | .subA1 _ => false
  | .subA2 _ => false
  | .subA3 _ => false
  | .rsbA1 _ => false
  | .rsbA2 _ => false
  | .rsbA3 _ => false
  | .addA1 _ => false
  | .addA2 _ => false
  | .addA3 _ => false
  | .adcA1 _ => false
  | .adcA2 _ => false
  | .adcA3 _ => false
  | .sbcA1 _ => false
  | .sbcA2 _ => false
  | .sbcA3 _ => false
  | .rscA1 _ => false
  | .rscA2 _ => false
  | .rscA3 _ => false
  | .tstA1 _ => false
  | .tstA2 _ => false
  | .tstA3 _ => false
  | .teqA1 _ => false
  | .teqA2 _ => false
  | .teqA3 _ => false
  | .cmpA1 _ => false
  | .cmpA2 _ => false
  | .cmpA3 _ => false
  | .cmnA1 _ => false
  | .cmnA2 _ => false
  | .cmnA3 _ => false
  | .orrA1 _ => false
  | .orrA2 _ => false
  | .orrA3 _ => false
  | .movA1 _ => false
  | .movA2 _ => false
  | .movA3 _ => false
  | .bicA1 _ => false
  | .bicA2 _ => false
  | .bicA3 _ => false
  | .mvnA1 _ => false
  | .mvnA2 _ => false
  | .mvnA3 _ => false
  | .mrs _ => false
  | .msrImm _ => false
  | .msrReg _ => false
  | .bx _ => false
  | .mul _ => false
  | .mla _ => false
  | .umull _ => false
  | .umlal _ => false
  | .smull _ => false
  | .smlal _ => false
  | .swp _ => true
  | .swpb _ => true
  | .strhReg _ => true
  | .strhImm _ => true
  | .ldrhReg _ => false
  | .ldrhImm _ => false
  | .ldrsbReg _ => false
  | .ldrsbImm _ => false
  | .ldrshReg _ => false
  | .ldrshImm _ => false
  | .ldrImmPre _ => false
  | .ldrImmPost _ => false
  | .ldrtImm _ => false
  | .ldrRegPre _ => false
  | .ldrRegPost _ => false
  | .ldrtReg _ => false
  | .ldrbImmPre _ => false
  | .ldrbImmPost _ => false
  | .ldrbtImm _ => false
  | .ldrbRegPre _ => false
  | .ldrbRegPost _ => false
  | .ldrbtReg _ => false
  | .strImmPre _ => true
  | .strImmPost _ => true
  | .strtImm _ => true
  | .strRegPre _ => true
  | .strRegPost _ => true
  | .strtReg _ => true
  | .strbImmPre _ => true
  | .strbImmPost _ => true
  | .strbtImm _ => true
  | .strbRegPre _ => true
  | .strbRegPost _ => true
  | .strbtReg _ => true
  | .undefined _ => false
  | .ldm1 _ => false
  | .ldm2 _ => false
  | .ldm3 _ => false
  | .stm1 _ => true
  | .stm2 _ => true
  | .b _ => false
  | .bl _ => false
  | .ldc _ => false
  | .stc _ => true
  | .cdp _ => false
  | .mrc _ => false
  | .mcr _ => false
  | .swi _ => false
  | .tLslImm _ => false
  | .tLsrImm _ => false
  | .tAsrImm _ => false
  | .tAddReg _ => false
  | .tSubReg _ => false
  | .tAddImm3 _ => false
  | .tSubImm3 _ => false
  | .tMovImm _ => false
  | .tCmpImm _ => false
  | .tAddImm8 _ => false
  | .tSubImm8 _ => false
  | .tAnd _ => false
  | .tEor _ => false
  | .tLslReg _ => false
  | .tLsrReg _ => false
  | .tAsrReg _ => false
  | .tAdc _ => false
  | .tSbc _ => false
  | .tRorReg _ => false
  | .tTst _ => false
  | .tNeg _ => false
  | .tCmp _ => false
  | .tCmn _ => false
  | .tOrr _ => false
  | .tMul _ => false
  | .tBic _ => false
  | .tMvn _ => false
  | .tAddHi _ => false
  | .tCmpHi _ => false
  | .tMovHi _ => false
  | .tBx _ => false
  | .tLdrPc _ => false
  | .tStrReg _ => true
  | .tStrbReg _ => true
  | .tLdrReg _ => false
  | .tLdrbReg _ => false
  | .tStrhReg _ => true
  | .tLdrhReg _ => false
  | .tLdsb _ => false
  | .tLdsh _ => false
  | .tStrImm _ => true
  | .tLdrImm _ => false
  | .tStrbImm _ => true
  | .tLdrbImm _ => false
  | .tStrhImm _ => true
  | .tLdrhImm _ => false
  | .tStrSp _ => true
  | .tLdrSp _ => false
  | .tAddPc _ => false
  | .tAddSp _ => false
  | .tAddToSp _ => false
  | .tSubFromSp _ => false
  | .tPush _ => true
  | .tPop _ => false
  | .tStmia _ => true
  | .tLdmia _ => false
  | .tBEq _ => false
  | .tBNe _ => false
  | .tBCs _ => false
  | .tBCc _ => false
  | .tBMi _ => false
  | .tBPl _ => false
  | .tBVs _ => false
  | .tBVc _ => false
  | .tBHi _ => false
  | .tBLs _ => false
  | .tBGe _ => false
  | .tBLt _ => false
  | .tBGt _ => false
  | .tBLe _ => false
  | .tSwi _ => false
  | .tB _ => false
  | .tBlHi _ => false
  | .tBlLo _ => false

/-- The block transfers: the kind of their accesses, the number of words and the lowest address
(spec/46_arm_block_transfer.md R310; spec/49_thumb_memory_branch.md R418 to R421). -/
def Instr.block : Instr → State → Option (Access × Nat × Word)
  | .andA1 _, _ => none
  | .andA2 _, _ => none
  | .andA3 _, _ => none
  | .eorA1 _, _ => none
  | .eorA2 _, _ => none
  | .eorA3 _, _ => none
  | .subA1 _, _ => none
  | .subA2 _, _ => none
  | .subA3 _, _ => none
  | .rsbA1 _, _ => none
  | .rsbA2 _, _ => none
  | .rsbA3 _, _ => none
  | .addA1 _, _ => none
  | .addA2 _, _ => none
  | .addA3 _, _ => none
  | .adcA1 _, _ => none
  | .adcA2 _, _ => none
  | .adcA3 _, _ => none
  | .sbcA1 _, _ => none
  | .sbcA2 _, _ => none
  | .sbcA3 _, _ => none
  | .rscA1 _, _ => none
  | .rscA2 _, _ => none
  | .rscA3 _, _ => none
  | .tstA1 _, _ => none
  | .tstA2 _, _ => none
  | .tstA3 _, _ => none
  | .teqA1 _, _ => none
  | .teqA2 _, _ => none
  | .teqA3 _, _ => none
  | .cmpA1 _, _ => none
  | .cmpA2 _, _ => none
  | .cmpA3 _, _ => none
  | .cmnA1 _, _ => none
  | .cmnA2 _, _ => none
  | .cmnA3 _, _ => none
  | .orrA1 _, _ => none
  | .orrA2 _, _ => none
  | .orrA3 _, _ => none
  | .movA1 _, _ => none
  | .movA2 _, _ => none
  | .movA3 _, _ => none
  | .bicA1 _, _ => none
  | .bicA2 _, _ => none
  | .bicA3 _, _ => none
  | .mvnA1 _, _ => none
  | .mvnA2 _, _ => none
  | .mvnA3 _, _ => none
  | .mrs _, _ => none
  | .msrImm _, _ => none
  | .msrReg _, _ => none
  | .bx _, _ => none
  | .mul _, _ => none
  | .mla _, _ => none
  | .umull _, _ => none
  | .umlal _, _ => none
  | .smull _, _ => none
  | .smlal _, _ => none
  | .swp _, _ => none
  | .swpb _, _ => none
  | .strhReg _, _ => none
  | .strhImm _, _ => none
  | .ldrhReg _, _ => none
  | .ldrhImm _, _ => none
  | .ldrsbReg _, _ => none
  | .ldrsbImm _, _ => none
  | .ldrshReg _, _ => none
  | .ldrshImm _, _ => none
  | .ldrImmPre _, _ => none
  | .ldrImmPost _, _ => none
  | .ldrtImm _, _ => none
  | .ldrRegPre _, _ => none
  | .ldrRegPost _, _ => none
  | .ldrtReg _, _ => none
  | .ldrbImmPre _, _ => none
  | .ldrbImmPost _, _ => none
  | .ldrbtImm _, _ => none
  | .ldrbRegPre _, _ => none
  | .ldrbRegPost _, _ => none
  | .ldrbtReg _, _ => none
  | .strImmPre _, _ => none
  | .strImmPost _, _ => none
  | .strtImm _, _ => none
  | .strRegPre _, _ => none
  | .strRegPost _, _ => none
  | .strtReg _, _ => none
  | .strbImmPre _, _ => none
  | .strbImmPost _, _ => none
  | .strbtImm _, _ => none
  | .strbRegPre _, _ => none
  | .strbRegPost _, _ => none
  | .strbtReg _, _ => none
  | .undefined _, _ => none
  | .ldm1 f, s => some (.read, countBelow f.list 16, blockStart f.p f.u (readReg s f.rn) (countBelow f.list 16))
  | .ldm2 f, s => some (.read, countBelow f.list 15, blockStart f.p f.u (readReg s f.rn) (countBelow f.list 15))
  | .ldm3 f, s => some (.read, countBelow f.list 15 + 1, blockStart f.p f.u (readReg s f.rn) (countBelow f.list 15 + 1))
  | .stm1 f, s => some (.write, countBelow f.list 16, blockStart f.p f.u (readReg s f.rn) (countBelow f.list 16))
  | .stm2 f, s => some (.write, countBelow f.list 16, blockStart f.p f.u (readReg s f.rn) (countBelow f.list 16))
  | .b _, _ => none
  | .bl _, _ => none
  | .ldc _, _ => none
  | .stc _, _ => none
  | .cdp _, _ => none
  | .mrc _, _ => none
  | .mcr _, _ => none
  | .swi _, _ => none
  | .tLslImm _, _ => none
  | .tLsrImm _, _ => none
  | .tAsrImm _, _ => none
  | .tAddReg _, _ => none
  | .tSubReg _, _ => none
  | .tAddImm3 _, _ => none
  | .tSubImm3 _, _ => none
  | .tMovImm _, _ => none
  | .tCmpImm _, _ => none
  | .tAddImm8 _, _ => none
  | .tSubImm8 _, _ => none
  | .tAnd _, _ => none
  | .tEor _, _ => none
  | .tLslReg _, _ => none
  | .tLsrReg _, _ => none
  | .tAsrReg _, _ => none
  | .tAdc _, _ => none
  | .tSbc _, _ => none
  | .tRorReg _, _ => none
  | .tTst _, _ => none
  | .tNeg _, _ => none
  | .tCmp _, _ => none
  | .tCmn _, _ => none
  | .tOrr _, _ => none
  | .tMul _, _ => none
  | .tBic _, _ => none
  | .tMvn _, _ => none
  | .tAddHi _, _ => none
  | .tCmpHi _, _ => none
  | .tMovHi _, _ => none
  | .tBx _, _ => none
  | .tLdrPc _, _ => none
  | .tStrReg _, _ => none
  | .tStrbReg _, _ => none
  | .tLdrReg _, _ => none
  | .tLdrbReg _, _ => none
  | .tStrhReg _, _ => none
  | .tLdrhReg _, _ => none
  | .tLdsb _, _ => none
  | .tLdsh _, _ => none
  | .tStrImm _, _ => none
  | .tLdrImm _, _ => none
  | .tStrbImm _, _ => none
  | .tLdrbImm _, _ => none
  | .tStrhImm _, _ => none
  | .tLdrhImm _, _ => none
  | .tStrSp _, _ => none
  | .tLdrSp _, _ => none
  | .tAddPc _, _ => none
  | .tAddSp _, _ => none
  | .tAddToSp _, _ => none
  | .tSubFromSp _, _ => none
  | .tPush f, s => some (.write, countBelow (pushList f) 16,
    readReg s spNum - BitVec.ofNat 32 (4 * countBelow (pushList f) 16))
  | .tPop f, s => some (.read, countBelow (popList f) 16, readReg s spNum)
  | .tStmia f, s => some (.write, countBelow f.list 8, readReg s (low f.rb))
  | .tLdmia f, s => some (.read, countBelow f.list 8, readReg s (low f.rb))
  | .tBEq _, _ => none
  | .tBNe _, _ => none
  | .tBCs _, _ => none
  | .tBCc _, _ => none
  | .tBMi _, _ => none
  | .tBPl _, _ => none
  | .tBVs _, _ => none
  | .tBVc _, _ => none
  | .tBHi _, _ => none
  | .tBLs _, _ => none
  | .tBGe _, _ => none
  | .tBLt _, _ => none
  | .tBGt _, _ => none
  | .tBLe _, _ => none
  | .tSwi _, _ => none
  | .tB _, _ => none
  | .tBlHi _, _ => none
  | .tBlLo _, _ => none

end Sys2Proof
end

