-- ==== Sys2Proof/Certificates/Slice0/Obligations.lean ====
section
/-! DEFINITION. The statements for the provers, from the numbered rules of spec/. A statement that gives a whole next state
says with it that nothing else changes. -/

open Sys2Proof Sys2Proof.Machine

/-- Decode and encode agree, for every instruction and every value of its fields (spec/30_encoding.md R102, R130). -/
def Obligations.decodeEncode : Prop := ∀ i : Instr, decodeCode (encode i) = .instr i

/-- Each instruction has one word (spec/30_encoding.md R102, R130): a word that decodes to an instruction is the word the
encoder gives it, so the decoder drops no bit. -/
def Obligations.encodeDecode : Prop :=
  (∀ (w : Word) (i : Instr), decodeArm w = .instr i → encode i = .arm w) ∧
  (∀ (h : Half) (i : Instr), decodeThumb h = .instr i → encode i = .thumb h)

/-- Words written out in the spec's examples decode to the instructions they stand for (spec/42_arm_data_processing.md R231,
R233, R251; spec/43_arm_multiply.md R262; spec/44_arm_branch.md R270, R272; spec/45_arm_load_store.md R285, R296;
spec/46_arm_block_transfer.md R312; spec/47_arm_coprocessor_swi_undefined.md R324, R335; spec/48_thumb_data.md R351;
spec/49_thumb_memory_branch.md R418). -/
def Obligations.knownWords : Prop :=
  decodeArm 0xE0010002#32 = .instr (.andA2 { cond := .al, s := false, rn := 1, rd := 0, shiftImm := 0, shift := .lsl, rm := 2 }) ∧
  decodeArm 0xE2500001#32 = .instr (.subA1 { cond := .al, s := true, rn := 0, rd := 0, rot := 0, imm8 := 1 }) ∧
  decodeArm 0xE121F000#32 = .instr (.msrReg { cond := .al, r := false, mask := 1, rm := 0 }) ∧
  decodeArm 0xE0000291#32 = .instr (.mul { cond := .al, s := false, rd := 0, rs := 2, rm := 1 }) ∧
  decodeArm 0xEAFFFFFE#32 = .instr (.b { cond := .al, imm24 := 0xFFFFFE }) ∧
  decodeArm 0xE12FFF1E#32 = .instr (.bx { cond := .al, rm := 14 }) ∧
  decodeArm 0xE5910004#32 = .instr (.ldrImmPre { cond := .al, u := true, w := false, rn := 1, rd := 0, off12 := 4 }) ∧
  decodeArm 0xE0C100B2#32 =
    .instr (.strhImm { cond := .al, p := false, u := true, w := false, rn := 1, rd := 0, immHi := 0, immLo := 2 }) ∧
  decodeArm 0xE92D4010#32 = .instr (.stm1 { cond := .al, p := true, u := false, w := true, rn := 13, list := 0x4010 }) ∧
  decodeArm 0xEE2431C5#32 =
    .instr (.cdp { cond := .al, op1 := 2, crn := 4, crd := 3, cp := 1, op2 := 6, crm := 5 }) ∧
  decodeArm 0xEF000011#32 = .instr (.swi { cond := .al, imm24 := 0x11 }) ∧
  decodeThumb 0x0088#16 = .instr (.tLslImm { off5 := 2, rs := 1, rd := 0 }) ∧
  decodeThumb 0xB510#16 = .instr (.tPush { r := true, list := 0x10 })

/-- A step runs the decoded instruction (spec/40_fetch_decode_dispatch.md R160, R164, R166, R170, R172, R185): the slots are
refilled first when they are invalid, which gives the state `s1`; when nothing is pending there and the slot `Decoded` holds
the word of an instruction `i`, the step is `exec i` of `prepare s1`, in which the budget was counted, the debug hook called
and the fetch of pc + 2*isz made, and then the retirement. Neither the refill nor `prepare` changes the pc, a register, a
status register, the accumulator, the handlers or an I or C count; `prepare` moves `Loaded` to `Decoded`, charges one cycle
for its fetch and, when the interface is quiet there, leaves memory and fills `Loaded` from it. -/
def Obligations.stepRunsDecoded : Prop :=
  ∀ (s : State) (i : Instr), haltAsked s = none →
    let s1 := if s.pipe.valid then clearHalt s else refill (clearHalt s)
    let p := prepare s1
    let core (x : State) := (x.pc, x.regs, x.cpsr, x.spsr, x.acc, x.inted, x.lastInted, x.coproc, x.params, x.freeCount)
    pendingException s1 = none →
    ((s.cpsr.t = false ∧ encode i = .arm s1.pipe.decoded.word) ∨
      (s.cpsr.t = true ∧ ∃ h : Half, encode i = .thumb h ∧ s1.pipe.decoded.word = h.setWidth 32)) →
    step s = (match exec i p with
      | .next t => .next (retire t)
      | .fault r => .fault r
      | .refused r => .refused r) ∧
    core s1 = core s ∧ core p = core s ∧
    s1.ctr = (if s.pipe.valid then s.ctr else charge 1 1 0 0 s.ctr) ∧
    p.ctr.cost = s1.ctr.cost + 1 ∧ p.ctr.numS + p.ctr.numN = s1.ctr.numS + s1.ctr.numN + 1 ∧
    p.ctr.numI = s.ctr.numI ∧ p.ctr.numC = s.ctr.numC ∧ p.ctr.numInstrs = s.ctr.numInstrs ∧ p.ctr.now = s.ctr.now ∧
    p.dbg.stepBudget = s.dbg.stepBudget.map (fun n => n - 1) ∧ p.dbg.catchMask = s.dbg.catchMask ∧
    p.pipe.valid = true ∧ p.pipe.decoded = s1.pipe.loaded ∧
    (QuietAt .fetch (fetchSize s) (s.pc + (isz s + isz s)) s1 → p.mem = s1.mem ∧
      p.pipe.loaded = { word := portLoad s1.mem (fetchSize s) (s.pc + (isz s + isz s)), pabort := false })

/-- SWI and the undefined instructions (spec/47_arm_coprocessor_swi_undefined.md R335, R340, R341;
spec/49_thumb_memory_branch.md R431, R445): r14 of the target mode takes pc + 4 in ARM state and pc + 2 in Thumb state, its
SPSR the old CPSR, then mode, I = 1, T = 0, F unchanged, and the branch to the vector; their row's cycles are charged
(`portContract`) and nothing else changes. What matches no
row does the same after its condition has passed; a near match (U19) and a word with condition 1111 (U2) are refused. -/
def Obligations.swiAndUndefined : Prop :=
  (∀ (f : Swi) (s : State), conditionPassed f.cond s.cpsr = true → caught .swi s = false →
    exec (.swi f) s = .next (entered .svc 8#32 (s.pc + isz s) s.cpsr.f (charges s.params.cycles.trap s))) ∧
  (∀ (f : T16) (s : State), caught .swi s = false →
    exec (.tSwi f) s = .next (entered .svc 8#32 (s.pc + isz s) s.cpsr.f (charges s.params.cycles.trap s))) ∧
  (∀ (f : UndefSpace) (s : State), conditionPassed f.cond s.cpsr = true → caught .undefined s = false →
    exec (.undefined f) s = .next (entered .undef 4#32 (s.pc + isz s) s.cpsr.f (charges s.params.cycles.trap s))) ∧
  (∀ (c : Cond) (s : State), conditionPassed c s.cpsr = true → caught .undefined s = false →
    execDecoded (.undefined (some c)) s =
      .next (entered .undef 4#32 (s.pc + isz s) s.cpsr.f (charges s.params.cycles.trap s))) ∧
  (∀ s : State, caught .undefined s = false →
    execDecoded (.undefined none) s =
      .next (entered .undef 4#32 (s.pc + isz s) s.cpsr.f (charges s.params.cycles.trap s))) ∧
  (∀ (c : Cond) (s : State), conditionPassed c s.cpsr = true →
    execDecoded (.nearMatch (some c)) s = .refused .nearMatch) ∧
  (∀ s : State, execDecoded (.nearMatch none) s = .refused .nearMatch) ∧
  (∀ (w : Word) (s : State), w.extractLsb' 28 4 = 0b1111#4 → execDecoded (decodeArm w) s = .refused .condNever)

/-- The condition table (spec/41_shifter_alu_flags.md R220), and what its names mean: after the flags of `a - b`, the
conditions order `a` and `b` as the table's "meaning" column says, unsigned and signed. -/
def Obligations.conditions : Prop :=
  (∀ p : Psr,
    (conditionPassed .eq p = true ↔ p.z = true) ∧ (conditionPassed .ne p = true ↔ p.z = false) ∧
    (conditionPassed .cs p = true ↔ p.c = true) ∧ (conditionPassed .cc p = true ↔ p.c = false) ∧
    (conditionPassed .mi p = true ↔ p.n = true) ∧ (conditionPassed .pl p = true ↔ p.n = false) ∧
    (conditionPassed .vs p = true ↔ p.v = true) ∧ (conditionPassed .vc p = true ↔ p.v = false) ∧
    (conditionPassed .hi p = true ↔ p.c = true ∧ p.z = false) ∧
    (conditionPassed .ls p = true ↔ p.c = false ∨ p.z = true) ∧
    (conditionPassed .ge p = true ↔ p.n = p.v) ∧ (conditionPassed .lt p = true ↔ p.n ≠ p.v) ∧
    (conditionPassed .gt p = true ↔ p.z = false ∧ p.n = p.v) ∧
    (conditionPassed .le p = true ↔ p.z = true ∨ p.n ≠ p.v) ∧ conditionPassed .al p = true) ∧
  (∀ (a b : Word) (s : State),
    let p := (withFlags true (a - b) (decide (b.toNat ≤ a.toNat)) (overflows (a.toInt - b.toInt)) s).cpsr
    (conditionPassed .eq p = true ↔ a = b) ∧ (conditionPassed .ne p = true ↔ a ≠ b) ∧
    (conditionPassed .cs p = true ↔ b.toNat ≤ a.toNat) ∧ (conditionPassed .cc p = true ↔ a.toNat < b.toNat) ∧
    (conditionPassed .hi p = true ↔ b.toNat < a.toNat) ∧ (conditionPassed .ls p = true ↔ a.toNat ≤ b.toNat) ∧
    (conditionPassed .ge p = true ↔ b.toInt ≤ a.toInt) ∧ (conditionPassed .lt p = true ↔ a.toInt < b.toInt) ∧
    (conditionPassed .gt p = true ↔ b.toInt < a.toInt) ∧ (conditionPassed .le p = true ↔ a.toInt ≤ b.toInt))

/-- A failed condition (spec/40_fetch_decode_dispatch.md R175, R185): whatever the instruction and its operands, it does nothing
but advance the pc; and the whole step of an ARM word, defined or not, whose condition fails consumes only the fetch cycle,
counts as one retired instruction and has no other effect. The hypotheses of the whole step leave out the collaborators: a
fetch that meets no region, a debug hook that asks for nothing, no event due. -/
def Obligations.conditionFailed : Prop :=
  (∀ (i : Instr) (c : Cond) (s : State), i.cond = some c → conditionPassed c s.cpsr = false → CanAdvance s →
    exec i s = .next (forward s)) ∧
  (∀ (s : State) (c : Cond), haltAsked s = none → s.pipe.valid = true → pendingException s = none → s.cpsr.t = false →
    s.pipe.decoded.word.extractLsb' 28 4 = condBits c → conditionPassed c s.cpsr = false → CanAdvance s →
    QuietAt .fetch .word (s.pc + 8#32) s → s.collab.hook = [] → s.collab.breakpoints = [] →
    (∀ n ∈ s.sched.events, s.ctr.now + s.ctr.cost + 1 < n.trigger) →
    step s = .next { s with
      pc := s.pc + 4#32
      fault := clean s.fault
      pipe := {
        decoded := s.pipe.loaded
        loaded := { word := portLoad s.mem .word (s.pc + 8#32), pabort := false }
        valid := true
        lastFetch := { valid := true, addr := s.pc + 8#32, size := 4#32 } }
      ctr := { s.ctr with
        numS := s.ctr.numS + if fetchClass (s.pc + 8#32) s.pipe.lastFetch = .s then 1 else 0
        numN := s.ctr.numN + if fetchClass (s.pc + 8#32) s.pipe.lastFetch = .s then 0 else 1
        numInstrs := s.ctr.numInstrs + 1
        now := s.ctr.now + (s.ctr.cost + 1)
        cost := 0 }
      dbg := { s.dbg with stepBudget := s.dbg.stepBudget.map (fun n => n - 1), halt := none } })

/-- The contract of the memory port (spec/20_memory.md R71, R72, R83, R84): whatever regions an access meets, and whatever the
interface does at `Internal` and `CoprocCycle`, no register, status register, slot, handler or clock changes; an access itself
counts nothing, and the cycles of a row of `CycleTable` are added to NumI, NumC and Cost, with one call of `Internal` and one of
`CoprocCycle` where their number is not 0, and can set or clear no abort; when nothing is scripted nothing else happens. What
the interface does there is scripted data, which is the model's own form (log 1, log 7). -/
def Obligations.portContract : Prop :=
  let core (x : State) := (x.pc, x.regs, x.cpsr, x.spsr, x.acc, x.inted, x.lastInted, x.pipe, x.coproc, x.params,
    x.fault.reseted, x.lines.resetReq, x.dbg.catchMask, x.dbg.stepBudget)
  (∀ (c : Cls) (k : Access) (sz : Size) (a : Word) (v : Option Word) (s : State),
    core (access c k sz a v s).2 = core s ∧ (access c k sz a v s).2.ctr = s.ctr) ∧
  (∀ (row : Cycles) (s : State),
    core (charges row s) = core s ∧ (charges row s).ctr = charge 0 0 row.i row.c s.ctr ∧
    (charges row s).fault = s.fault ∧
    (charges row s).collab = { s.collab with
      internal := if row.i = 0 then s.collab.internal else s.collab.internal.tail
      coprocCycle := if row.c = 0 then s.collab.coprocCycle else s.collab.coprocCycle.tail } ∧
    (row = ⟨0, 0⟩ ∨ (s.collab.internal = [] ∧ s.collab.coprocCycle = []) →
      charges row s = spend 0 0 row.i row.c s))

/-- The shifter (spec/41_shifter_alu_flags.md R200, R201, R202), read bit by bit and as shifts of the 33-bit value in which
the carry stands beside the operand: LSL above it, LSR, ASR and RRX below it. A register amount is given here as a number below
256; that it is the least significant byte of Rs is said where a form reads Rs: `logicalOperations`, `arithmeticOperations` and
`compares` for format A3, `thumbShifts` for Thumb format 4. -/
def Obligations.shifter : Prop :=
  (∀ (rot : BitVec 4) (imm8 : BitVec 8) (c : Bool) (k : Nat), k < 32 →
    (shifterImm rot imm8 c).value.getLsbD k =
      (decide ((k + 2 * rot.toNat) % 32 < 8) && imm8.getLsbD ((k + 2 * rot.toNat) % 32))) ∧
  (∀ (rot : BitVec 4) (imm8 : BitVec 8) (c : Bool),
    (shifterImm rot imm8 c).carry = if rot.toNat = 0 then c else (shifterImm rot imm8 c).value.msb) ∧
  (∀ (n : Nat) (v : Word) (c : Bool), n < 256 →
    BitVec.ofBool (shiftReg .lsl n v c).carry ++ (shiftReg .lsl n v c).value = (BitVec.ofBool c ++ v) <<< n ∧
    (shiftReg .lsr n v c).value ++ BitVec.ofBool (shiftReg .lsr n v c).carry = (v ++ BitVec.ofBool c) >>> n ∧
    (shiftReg .asr n v c).value ++ BitVec.ofBool (shiftReg .asr n v c).carry = (v ++ BitVec.ofBool c).sshiftRight n ∧
    (∀ k, k < 32 → (shiftReg .ror n v c).value.getLsbD k = v.getLsbD ((k + n) % 32)) ∧
    (shiftReg .ror n v c).carry = if n = 0 then c else v.getLsbD ((n + 31) % 32)) ∧
  (∀ (ty : ShiftType) (n : Nat) (v : Word) (c : Bool), 0 < n → n < 32 → shiftImm ty n v c = shiftReg ty n v c) ∧
  (∀ (v : Word) (c : Bool),
    shiftImm .lsl 0 v c = { value := v, carry := c } ∧
    shiftImm .lsr 0 v c = shiftReg .lsr 32 v c ∧
    shiftImm .asr 0 v c = shiftReg .asr 32 v c ∧
    (shiftImm .ror 0 v c).value ++ BitVec.ofBool (shiftImm .ror 0 v c).carry = (v ++ BitVec.ofBool c).rotateRight 1)

/-- AND, EOR, ORR, BIC, MOV, MVN with a destination other than r15 (spec/42_arm_data_processing.md R230, R231, R232, R243 to
R246; spec/41_shifter_alu_flags.md R207, R209): Rd takes the result; with S = 1 N and Z are the result's, C the shifter
carry-out and V unchanged. The whole next state is given, so every other register and flag is as before; beside that their
row's cycles are charged (`portContract`). -/
def Obligations.logicalOperations : Prop :=
  (∀ row ∈ logicalRows, ∀ s : State, CanAdvance s →
    (∀ f : A1, conditionPassed f.cond s.cpsr = true → f.rd ≠ 15#4 →
      let b := shifterImm f.rot f.imm8 s.cpsr.c
      let r := row.value (readReg s f.rn) b.value
      exec (row.a1 f) s =
        .next (forward (withFlags f.s r b.carry s.cpsr.v (writeReg (charges s.params.cycles.dataImm s) f.rd r)))) ∧
    (∀ f : A2, conditionPassed f.cond s.cpsr = true → f.rd ≠ 15#4 →
      let b := shiftImm f.shift f.shiftImm.toNat (readReg s f.rm) s.cpsr.c
      let r := row.value (readReg s f.rn) b.value
      exec (row.a2 f) s =
        .next (forward (withFlags f.s r b.carry s.cpsr.v (writeReg (charges s.params.cycles.dataImm s) f.rd r)))) ∧
    (∀ f : A3, conditionPassed f.cond s.cpsr = true → (row.a3 f).restriction = none →
      let b := shiftReg f.shift ((readReg s f.rs).toNat % 256) (readReg s f.rm) s.cpsr.c
      let r := row.value (readReg s f.rn) b.value
      exec (row.a3 f) s =
        .next (forward (withFlags f.s r b.carry s.cpsr.v (writeReg (charges s.params.cycles.dataReg s) f.rd r))))) ∧
  (∀ row ∈ moveRows, ∀ s : State, CanAdvance s →
    (∀ f : A1Mov, conditionPassed f.cond s.cpsr = true → f.rd ≠ 15#4 →
      let b := shifterImm f.rot f.imm8 s.cpsr.c
      let r := row.value b.value
      exec (row.a1 f) s =
        .next (forward (withFlags f.s r b.carry s.cpsr.v (writeReg (charges s.params.cycles.dataImm s) f.rd r)))) ∧
    (∀ f : A2Mov, conditionPassed f.cond s.cpsr = true → f.rd ≠ 15#4 →
      let b := shiftImm f.shift f.shiftImm.toNat (readReg s f.rm) s.cpsr.c
      let r := row.value b.value
      exec (row.a2 f) s =
        .next (forward (withFlags f.s r b.carry s.cpsr.v (writeReg (charges s.params.cycles.dataImm s) f.rd r)))) ∧
    (∀ f : A3Mov, conditionPassed f.cond s.cpsr = true → (row.a3 f).restriction = none →
      let b := shiftReg f.shift ((readReg s f.rs).toNat % 256) (readReg s f.rm) s.cpsr.c
      let r := row.value b.value
      exec (row.a3 f) s =
        .next (forward (withFlags f.s r b.carry s.cpsr.v (writeReg (charges s.params.cycles.dataReg s) f.rd r)))))

/-- SUB, RSB, ADD, ADC, SBC, RSC with a destination other than r15 (spec/42_arm_data_processing.md R230, R233 to R238;
spec/41_shifter_alu_flags.md R205, R208, R209): the result modulo 2^32, C the unsigned carry of an addition and NOT borrow of
a subtraction, V set exactly when the exact signed result does not fit in 32 bits. The whole next state is given. -/
def Obligations.arithmeticOperations : Prop :=
  ∀ row ∈ arithRows, ∀ s : State, CanAdvance s →
    (∀ f : A1, conditionPassed f.cond s.cpsr = true → f.rd ≠ 15#4 →
      let a := readReg s f.rn
      let b := (shifterImm f.rot f.imm8 s.cpsr.c).value
      exec (row.a1 f) s = .next (forward (withFlags f.s (row.value a b s.cpsr.c) (row.carry a b s.cpsr.c)
        (overflows (row.exact a b s.cpsr.c)) (writeReg (charges s.params.cycles.dataImm s) f.rd (row.value a b s.cpsr.c))))) ∧
    (∀ f : A2, conditionPassed f.cond s.cpsr = true → f.rd ≠ 15#4 →
      let a := readReg s f.rn
      let b := (shiftImm f.shift f.shiftImm.toNat (readReg s f.rm) s.cpsr.c).value
      exec (row.a2 f) s = .next (forward (withFlags f.s (row.value a b s.cpsr.c) (row.carry a b s.cpsr.c)
        (overflows (row.exact a b s.cpsr.c)) (writeReg (charges s.params.cycles.dataImm s) f.rd (row.value a b s.cpsr.c))))) ∧
    (∀ f : A3, conditionPassed f.cond s.cpsr = true → (row.a3 f).restriction = none →
      let a := readReg s f.rn
      let b := (shiftReg f.shift ((readReg s f.rs).toNat % 256) (readReg s f.rm) s.cpsr.c).value
      exec (row.a3 f) s = .next (forward (withFlags f.s (row.value a b s.cpsr.c) (row.carry a b s.cpsr.c)
        (overflows (row.exact a b s.cpsr.c)) (writeReg (charges s.params.cycles.dataReg s) f.rd (row.value a b s.cpsr.c)))))

/-- TST, TEQ, CMP, CMN (spec/42_arm_data_processing.md R230, R239 to R242): the flags are always set and no register is
written. The whole next state is given. -/
def Obligations.compares : Prop :=
  (∀ row ∈ testRows, ∀ s : State, CanAdvance s →
    (∀ f : A1Cmp, conditionPassed f.cond s.cpsr = true →
      let b := shifterImm f.rot f.imm8 s.cpsr.c
      exec (row.a1 f) s =
        .next (forward (withFlags true (row.value (readReg s f.rn) b.value) b.carry s.cpsr.v
          (charges s.params.cycles.dataImm s)))) ∧
    (∀ f : A2Cmp, conditionPassed f.cond s.cpsr = true →
      let b := shiftImm f.shift f.shiftImm.toNat (readReg s f.rm) s.cpsr.c
      exec (row.a2 f) s =
        .next (forward (withFlags true (row.value (readReg s f.rn) b.value) b.carry s.cpsr.v
          (charges s.params.cycles.dataImm s)))) ∧
    (∀ f : A3Cmp, conditionPassed f.cond s.cpsr = true → (row.a3 f).restriction = none →
      let b := shiftReg f.shift ((readReg s f.rs).toNat % 256) (readReg s f.rm) s.cpsr.c
      exec (row.a3 f) s = .next (forward (withFlags true (row.value (readReg s f.rn) b.value) b.carry s.cpsr.v
        (charges s.params.cycles.dataReg s))))) ∧
  (∀ row ∈ compareRows, ∀ s : State, CanAdvance s →
    (∀ f : A1Cmp, conditionPassed f.cond s.cpsr = true →
      let a := readReg s f.rn
      let b := (shifterImm f.rot f.imm8 s.cpsr.c).value
      exec (row.a1 f) s =
        .next (forward (withFlags true (row.value a b) (row.carry a b) (overflows (row.exact a b))
          (charges s.params.cycles.dataImm s)))) ∧
    (∀ f : A2Cmp, conditionPassed f.cond s.cpsr = true →
      let a := readReg s f.rn
      let b := (shiftImm f.shift f.shiftImm.toNat (readReg s f.rm) s.cpsr.c).value
      exec (row.a2 f) s =
        .next (forward (withFlags true (row.value a b) (row.carry a b) (overflows (row.exact a b))
          (charges s.params.cycles.dataImm s)))) ∧
    (∀ f : A3Cmp, conditionPassed f.cond s.cpsr = true → (row.a3 f).restriction = none →
      let a := readReg s f.rn
      let b := (shiftReg f.shift ((readReg s f.rs).toNat % 256) (readReg s f.rm) s.cpsr.c).value
      exec (row.a3 f) s = .next (forward (withFlags true (row.value a b) (row.carry a b) (overflows (row.exact a b))
        (charges s.params.cycles.dataReg s)))))

/-- A data-processing operation with destination r15 (spec/42_arm_data_processing.md R230; spec/41_shifter_alu_flags.md R210;
spec/60_exceptions.md R474; the misaligned targets are U10): with S = 0 a pc write, with S = 1 CPSR <- SPSR and the pc write in
the instruction set restored; in USER and SYSTEM mode, and when the SPSR holds no mode, `fault InvalidMode`. No other register
is written. Formats A1 and A2; that format A3 refuses r15 is said by `refusedForms`. That the fault comes before the refusal of a
misaligned target (U10) is the model's order (log 10). -/
def Obligations.resultsToPc : Prop :=
  (∀ row ∈ valueRows, ∀ s : State,
    (∀ f : A1, conditionPassed f.cond s.cpsr = true → f.rd = 15#4 →
      exec (row.1 f) s =
        toPc f.s (row.2.2 (readReg s f.rn) (shifterImm f.rot f.imm8 s.cpsr.c).value s.cpsr.c)
          (charges s.params.cycles.dataImm s)) ∧
    (∀ f : A2, conditionPassed f.cond s.cpsr = true → f.rd = 15#4 →
      exec (row.2.1 f) s = toPc f.s
        (row.2.2 (readReg s f.rn) (shiftImm f.shift f.shiftImm.toNat (readReg s f.rm) s.cpsr.c).value s.cpsr.c)
        (charges s.params.cycles.dataImm s))) ∧
  (∀ row ∈ moveRows, ∀ s : State,
    (∀ f : A1Mov, conditionPassed f.cond s.cpsr = true → f.rd = 15#4 →
      exec (row.a1 f) s = toPc f.s (row.value (shifterImm f.rot f.imm8 s.cpsr.c).value) (charges s.params.cycles.dataImm s)) ∧
    (∀ f : A2Mov, conditionPassed f.cond s.cpsr = true → f.rd = 15#4 →
      exec (row.a2 f) s =
        toPc f.s (row.value (shiftImm f.shift f.shiftImm.toNat (readReg s f.rm) s.cpsr.c).value)
          (charges s.params.cycles.dataImm s)))

/-- MRS and MSR of the SPSR (spec/42_arm_data_processing.md R250, R251; spec/10_state.md R35, R39, R41): MRS writes Rd and
nothing else; the CPSR reads with its fields at their bits and bits 27:8 zero, the SPSR as all its 32 bits; MSR of the SPSR
replaces the bytes its field mask names and nothing else. In USER and SYSTEM mode an SPSR access is `fault InvalidMode`. -/
def Obligations.statusAccess : Prop :=
  (∀ (f : Mrs) (s : State), conditionPassed f.cond s.cpsr = true → f.rd ≠ 15#4 → CanAdvance s → f.r = false →
    ∃ w : Word, exec (.mrs f) s = .next (forward (writeReg (charges s.params.cycles.status s) f.rd w)) ∧
      w.getLsbD 31 = s.cpsr.n ∧ w.getLsbD 30 = s.cpsr.z ∧ w.getLsbD 29 = s.cpsr.c ∧ w.getLsbD 28 = s.cpsr.v ∧
      (∀ k, 8 ≤ k → k < 28 → w.getLsbD k = false) ∧
      w.getLsbD 7 = s.cpsr.i ∧ w.getLsbD 6 = s.cpsr.f ∧ w.getLsbD 5 = s.cpsr.t ∧
      modeOfNumber (w.extractLsb' 0 5) = some s.cpsr.m) ∧
  (∀ (f : Mrs) (s : State), conditionPassed f.cond s.cpsr = true → f.rd ≠ 15#4 → CanAdvance s → f.r = true →
    exec (.mrs f) s = if s.cpsr.m = .user ∨ s.cpsr.m = .system then .fault .invalidMode
      else .next (forward (writeReg (charges s.params.cycles.status s) f.rd s.spsr[s.cpsr.m.bank]))) ∧
  (∀ (i : Instr) (mask : BitVec 4) (x : Word) (c : Cond) (s : State),
    ((∃ f : MsrImm, i = .msrImm f ∧ f.r = true ∧ f.cond = c ∧ f.mask = mask ∧ (shifterImm f.rot f.imm8 s.cpsr.c).value = x) ∨
      (∃ f : MsrReg, i = .msrReg f ∧ f.r = true ∧ f.cond = c ∧ f.mask = mask ∧ f.rm ≠ 15#4 ∧ readReg s f.rm = x)) →
    conditionPassed c s.cpsr = true → CanAdvance s →
    ((s.cpsr.m = .user ∨ s.cpsr.m = .system) → exec i s = .fault .invalidMode) ∧
    (s.cpsr.m ≠ .user → s.cpsr.m ≠ .system →
      ∃ w : Word, exec i s = .next (forward { charges s.params.cycles.status s with spsr := s.spsr.set s.cpsr.m.bank w }) ∧
        ∀ k, k < 4 → w.extractLsb' (8 * k) 8 =
          (if mask.getLsbD k then x else s.spsr[s.cpsr.m.bank]).extractLsb' (8 * k) 8))

/-- MSR of the CPSR (spec/42_arm_data_processing.md R251; spec/10_state.md R30, R37, R38; spec/60_exceptions.md R481): the f field
writes N, Z, C, V; the c field writes I, F and M outside USER mode and nothing in it; a change of M refetches from the next
instruction (spec/40_fetch_decode_dispatch.md R171), at the top of the address space too; an invalid mode number is `fault
InvalidMode`; a change of T is refused (U5). No general register, SPSR or memory byte changes. The order of fault and refusal is
the model's (log 10). -/
def Obligations.msrCpsr : Prop :=
  ∀ (i : Instr) (mask : BitVec 4) (x : Word) (c : Cond) (s : State),
    ((∃ f : MsrImm, i = .msrImm f ∧ f.r = false ∧ f.cond = c ∧ f.mask = mask ∧ (shifterImm f.rot f.imm8 s.cpsr.c).value = x) ∨
      (∃ f : MsrReg, i = .msrReg f ∧ f.r = false ∧ f.cond = c ∧ f.mask = mask ∧ f.rm ≠ 15#4 ∧ readReg s f.rm = x)) →
    conditionPassed c s.cpsr = true →
    let s0 := charges s.params.cycles.status s
    let flags : Psr := if mask.getLsbD 3
      then { s.cpsr with n := x.getLsbD 31, z := x.getLsbD 30, c := x.getLsbD 29, v := x.getLsbD 28 } else s.cpsr
    ((mask.getLsbD 0 = false ∨ s.cpsr.m = .user) → CanAdvance s → exec i s = .next (forward { s0 with cpsr := flags })) ∧
    (mask.getLsbD 0 = true → s.cpsr.m ≠ .user →
      (modeOfNumber (x.extractLsb' 0 5) = none → exec i s = .fault .invalidMode) ∧
      (∀ m, modeOfNumber (x.extractLsb' 0 5) = some m →
        let s1 := { s0 with cpsr := { flags with i := x.getLsbD 7, f := x.getLsbD 6, m } }
        (x.getLsbD 5 ≠ s.cpsr.t → exec i s = .refused .msrChangesT) ∧
        (x.getLsbD 5 = s.cpsr.t → m = s.cpsr.m → CanAdvance s → exec i s = .next (forward s1)) ∧
        (x.getLsbD 5 = s.cpsr.t → m ≠ s.cpsr.m → exec i s = .next (branchTo (s.pc + isz s) s1))))

/-- MUL, MLA and Thumb MUL (spec/43_arm_multiply.md R260 to R263; spec/41_shifter_alu_flags.md R212; spec/48_thumb_data.md
R375): Rd takes the low 32 bits of the product (and sum), N and Z are its own when S = 1, C is then some value the spec leaves
open (log 6), V and everything else are unchanged, and the array's internal cycles are charged by the value of Rs. -/
def Obligations.multiplies : Prop :=
  let array (signed : Bool) (v : Word) (row : Cycles) (s : State) : Cycles :=
    { i := arrayCycles signed s.params.cycles v + row.i, c := row.c }
  (∀ (f : Mul) (s : State), conditionPassed f.cond s.cpsr = true → (Instr.mul f).restriction = none → CanAdvance s →
    let r := BitVec.ofNat 32 ((readReg s f.rm).toNat * (readReg s f.rs).toNat)
    ∃ c k, exec (.mul f) s = .next { forward (withFlags f.s r c s.cpsr.v
      (writeReg (charges (array true (readReg s f.rs) s.params.cycles.mul s) s) f.rd r)) with freeCount := k }) ∧
  (∀ (f : Mla) (s : State), conditionPassed f.cond s.cpsr = true → (Instr.mla f).restriction = none → CanAdvance s →
    let r := BitVec.ofNat 32 ((readReg s f.rm).toNat * (readReg s f.rs).toNat + (readReg s f.rn).toNat)
    ∃ c k, exec (.mla f) s = .next { forward (withFlags f.s r c s.cpsr.v
      (writeReg (charges (array true (readReg s f.rs) s.params.cycles.mla s) s) f.rd r)) with freeCount := k }) ∧
  (∀ (f : T4) (s : State), (Instr.tMul f).restriction = none → CanAdvance s →
    let r := BitVec.ofNat 32 ((readReg s (low f.rs)).toNat * (readReg s (low f.rd)).toNat)
    ∃ c k, exec (.tMul f) s = .next { forward (withFlags true r c s.cpsr.v
      (writeReg (charges (array true (readReg s (low f.rd)) s.params.cycles.mul s) s) (low f.rd) r)) with freeCount := k })

/-- UMULL, UMLAL, SMULL, SMLAL (spec/43_arm_multiply.md R260, R261, R264 to R267; spec/41_shifter_alu_flags.md R212): the
64-bit product of the zero- or sign-extended operands, plus RdHi:RdLo in the accumulate forms, modulo 2^64; its halves go to
RdLo and RdHi; N and Z are the 64-bit result's when S = 1, C and V are then values the spec leaves open (log 6); nothing else
changes. -/
def Obligations.longMultiplies : Prop :=
  ∀ (f : Mull) (s : State), conditionPassed f.cond s.cpsr = true → f.check = none → CanAdvance s →
    let a := readReg s f.rm
    let b := readReg s f.rs
    let acc := readReg s f.rdHi ++ readReg s f.rdLo
    let goes (i : Instr) (signed : Bool) (p : BitVec 64) (row : Cycles) : Prop :=
      let s0 := charges { i := arrayCycles signed s.params.cycles b + row.i, c := row.c } s
      ∃ c v k, exec i s = .next { forward { writeReg (writeReg s0 f.rdLo (p.extractLsb' 0 32)) f.rdHi (p.extractLsb' 32 32) with
          cpsr := if f.s then { s.cpsr with n := p.msb, z := decide (p = 0#64), c, v } else s.cpsr }
        with freeCount := k }
    goes (.umull f) false (a.setWidth 64 * b.setWidth 64) s.params.cycles.mull ∧
    goes (.umlal f) false (a.setWidth 64 * b.setWidth 64 + acc) s.params.cycles.mlal ∧
    goes (.smull f) true (a.signExtend 64 * b.signExtend 64) s.params.cycles.mull ∧
    goes (.smlal f) true (a.signExtend 64 * b.signExtend 64 + acc) s.params.cycles.mlal

/-- B, BL, BX and Thumb BX (spec/44_arm_branch.md R270, R271, R272; spec/48_thumb_data.md R381): the target is pc + 8 plus four
times the signed offset, BL leaves pc + 4 in r14 of the current mode, BX takes T from bit 0 of the register; a register with
bits 1:0 = 10 is U10. No flag changes; what the branch itself does is `branchWrite`. -/
def Obligations.branches : Prop :=
  (∀ (f : Branch) (s : State), conditionPassed f.cond s.cpsr = true →
    let target := s.pc + 8#32 + BitVec.ofInt 32 (4 * f.imm24.toInt)
    let s0 := charges s.params.cycles.branch s
    exec (.b f) s = .next (branchTo target s0) ∧
    exec (.bl f) s = .next (branchTo target (writeReg s0 14#4 (s.pc + 4#32)))) ∧
  (∀ (i : Instr) (x : Word) (s : State),
    ((∃ f : Bx, i = .bx f ∧ conditionPassed f.cond s.cpsr = true ∧ readReg s f.rm = x) ∨
      (∃ f : T5Bx, i = .tBx f ∧ readReg s f.hs = x)) →
    exec i s = if x.extractLsb' 0 2 = 0b10#2 then .refused .misalignedPc
      else .next (branchTo x { charges s.params.cycles.branch s with cpsr := { s.cpsr with t := x.getLsbD 0 } }))

/-- A pc write (spec/10_state.md R31; spec/40_fetch_decode_dispatch.md R170; spec/20_memory.md R73): the value is stored aligned
for the instruction set in force, the slots are refilled from it and from the next address, one N and one S cycle are charged,
and nothing else changes. The interface is quiet at the two fetches. -/
def Obligations.branchWrite : Prop :=
  ∀ (v : Word) (s : State),
    let sz := if s.cpsr.t then Size.half else Size.word
    let n := if s.cpsr.t then 2#32 else 4#32
    let a := if s.cpsr.t then v &&& 0xFFFFFFFE#32 else v &&& 0xFFFFFFFC#32
    QuietRefill a s.cpsr.t s →
    branchTo v s = { s with
      pc := a
      fault := clean s.fault
      ctr := charge 1 1 0 0 s.ctr
      pipe := {
        decoded := { word := portLoad s.mem sz a, pabort := false }
        loaded := { word := portLoad s.mem sz (a + n), pabort := false }
        valid := true
        lastFetch := { valid := true, addr := a + n, size := n } } }

/-- What a load puts in its register (spec/20_memory.md R73, R74, R76; spec/45_arm_load_store.md R285, R286, R293 to R295), byte
by byte: a word load rotates the aligned word so that the byte addressed comes first; a byte and an even halfword are taken
from their own addresses, zero-extended or with their sign bit copied upwards. -/
def Obligations.loadedValues : Prop :=
  ∀ (m : Memory) (a : Word),
    (∀ k, k < 4 → (LoadOp.word.value a (portLoad m .word a)).extractLsb' (8 * k) 8 =
      memGet m (4 * (a.toNat / 4) + (a.toNat + k) % 4)) ∧
    (∀ k, k < 32 → (LoadOp.byte.value a (portLoad m .byte a)).getLsbD k =
      (decide (k < 8) && (memGet m a.toNat).getLsbD k)) ∧
    (∀ k, k < 32 → (LoadOp.signedByte.value a (portLoad m .byte a)).getLsbD k =
      (memGet m a.toNat).getLsbD (min k 7)) ∧
    (a.getLsbD 0 = false → ∀ k, k < 32 →
      (LoadOp.half.value a (portLoad m .half a)).getLsbD k =
        (decide (k < 16) && (memGet m (a.toNat + k / 8)).getLsbD (k % 8)) ∧
      (LoadOp.signedHalf.value a (portLoad m .half a)).getLsbD k =
        (memGet m (a.toNat + min k 15 / 8)).getLsbD (min k 15 % 8))

/-- The ARM single loads with a destination other than r15 (spec/45_arm_load_store.md R280, R281, R283, R285, R286, R289, R290,
R293 to R295; spec/20_memory.md R80): the address, the write-back, the value of `loadedValues`, one N and the load's internal
cycle. The interface is quiet at the access and a halfword's address is even. The whole next state is given: no flag, no other
register and no byte of memory changes. -/
def Obligations.armLoads : Prop :=
  ∀ s : State, CanAdvance s →
    let goes (i : Instr) (op : LoadOp) (rd rn : RegNum) (a moved : Word) (wb : Bool) : Prop :=
      i.restriction = none → rd ≠ 15#4 → QuietAt .read op.size a s → (op.size = .half → a.getLsbD 0 = false) →
      let s1 := charges s.params.cycles.load (settled (spend 1 0 0 0 s))
      exec i s = .next (forward (writeReg (if wb then writeReg s1 rn moved else s1) rd (op.value a (portLoad s.mem op.size a))))
    let near (u : Bool) (base off : Word) : Word := if u then base + off else base - off
    (∀ row ∈ loadsImmPre, ∀ f : LsImmPre, conditionPassed f.cond s.cpsr = true →
      let moved := near f.u (readReg s f.rn) (f.off12.setWidth 32)
      goes (row.1 f) row.2 f.rd f.rn moved moved f.w) ∧
    (∀ row ∈ loadsImmPost, ∀ f : LsImmPost, conditionPassed f.cond s.cpsr = true →
      goes (row.1 f) row.2 f.rd f.rn (readReg s f.rn) (near f.u (readReg s f.rn) (f.off12.setWidth 32)) true) ∧
    (∀ row ∈ loadsRegPre, ∀ f : LsRegPre, conditionPassed f.cond s.cpsr = true →
      let moved := near f.u (readReg s f.rn) (shiftImm f.shift f.shiftImm.toNat (readReg s f.rm) s.cpsr.c).value
      goes (row.1 f) row.2 f.rd f.rn moved moved f.w) ∧
    (∀ row ∈ loadsRegPost, ∀ f : LsRegPost, conditionPassed f.cond s.cpsr = true →
      goes (row.1 f) row.2 f.rd f.rn (readReg s f.rn)
        (near f.u (readReg s f.rn) (shiftImm f.shift f.shiftImm.toNat (readReg s f.rm) s.cpsr.c).value) true) ∧
    (∀ row ∈ loadsHwReg, ∀ f : HwReg, conditionPassed f.cond s.cpsr = true →
      let moved := near f.u (readReg s f.rn) (readReg s f.rm)
      goes (row.1 f) row.2 f.rd f.rn (if f.p then moved else readReg s f.rn) moved (!f.p || f.w)) ∧
    (∀ row ∈ loadsHwImm, ∀ f : HwImm, conditionPassed f.cond s.cpsr = true →
      let moved := near f.u (readReg s f.rn) ((f.immHi ++ f.immLo : BitVec 8).setWidth 32)
      goes (row.1 f) row.2 f.rd f.rn (if f.p then moved else readReg s f.rn) moved (!f.p || f.w))

/-- LDR with destination r15 (spec/45_arm_load_store.md R285): a branch to the loaded value that leaves T as it is, after the
write-back; a value that is not aligned is U10. -/
def Obligations.loadsToPc : Prop :=
  ∀ s : State,
    let goes (i : Instr) (rn : RegNum) (a moved : Word) (wb : Bool) : Prop :=
      i.restriction = none → QuietAt .read .word a s →
      let v := LoadOp.word.value a (portLoad s.mem .word a)
      let s1 := charges s.params.cycles.load (settled (spend 1 0 0 0 s))
      exec i s = if aligned s.cpsr.t v then .next (branchTo v (if wb then writeReg s1 rn moved else s1))
        else .refused .misalignedPc
    let near (u : Bool) (base off : Word) : Word := if u then base + off else base - off
    (∀ f : LsImmPre, conditionPassed f.cond s.cpsr = true → f.rd = 15#4 →
      let moved := near f.u (readReg s f.rn) (f.off12.setWidth 32)
      goes (.ldrImmPre f) f.rn moved moved f.w) ∧
    (∀ f : LsImmPost, conditionPassed f.cond s.cpsr = true → f.rd = 15#4 →
      goes (.ldrImmPost f) f.rn (readReg s f.rn) (near f.u (readReg s f.rn) (f.off12.setWidth 32)) true) ∧
    (∀ f : LsRegPre, conditionPassed f.cond s.cpsr = true → f.rd = 15#4 →
      let moved := near f.u (readReg s f.rn) (shiftImm f.shift f.shiftImm.toNat (readReg s f.rm) s.cpsr.c).value
      goes (.ldrRegPre f) f.rn moved moved f.w) ∧
    (∀ f : LsRegPost, conditionPassed f.cond s.cpsr = true → f.rd = 15#4 →
      goes (.ldrRegPost f) f.rn (readReg s f.rn)
        (near f.u (readReg s f.rn) (shiftImm f.shift f.shiftImm.toNat (readReg s f.rm) s.cpsr.c).value) true)

/-- The ARM single stores (spec/45_arm_load_store.md R280, R281, R283, R287, R288, R291, R292, R296; spec/20_memory.md R73, R74,
R81): the low bytes of Rd, or of pc + STORE_PC_OFFSET for r15 (U11), go to the address, a word to the aligned address, every
other byte of memory is as before; the base is written back; one N cycle. No flag and no other register changes. That
the row's cycles are charged after the store is the model's choice (log 7, DESIGN CHOICE). -/
def Obligations.armStores : Prop :=
  ∀ s : State, CanAdvance s → s.mem.wf = true →
    let goes (i : Instr) (sz : Size) (rd rn : RegNum) (a moved : Word) (wb : Bool) : Prop :=
      i.restriction = none → QuietAt .write sz a s → (sz = .half → a.getLsbD 0 = false) →
      ∃ s1, Stored sz a (if rd = 15#4 then s.pc + pcOffset s.params.storePcOffset else readReg s rd) s s1 ∧
        s1 = { settled (spend 1 0 0 0 s) with mem := s1.mem } ∧
        let s2 := charges s.params.cycles.store s1
        exec i s = .next (forward (if wb then writeReg s2 rn moved else s2))
    let near (u : Bool) (base off : Word) : Word := if u then base + off else base - off
    (∀ row ∈ storesImmPre, ∀ f : LsImmPre, conditionPassed f.cond s.cpsr = true →
      let moved := near f.u (readReg s f.rn) (f.off12.setWidth 32)
      goes (row.1 f) row.2 f.rd f.rn moved moved f.w) ∧
    (∀ row ∈ storesImmPost, ∀ f : LsImmPost, conditionPassed f.cond s.cpsr = true →
      goes (row.1 f) row.2 f.rd f.rn (readReg s f.rn) (near f.u (readReg s f.rn) (f.off12.setWidth 32)) true) ∧
    (∀ row ∈ storesRegPre, ∀ f : LsRegPre, conditionPassed f.cond s.cpsr = true →
      let moved := near f.u (readReg s f.rn) (shiftImm f.shift f.shiftImm.toNat (readReg s f.rm) s.cpsr.c).value
      goes (row.1 f) row.2 f.rd f.rn moved moved f.w) ∧
    (∀ row ∈ storesRegPost, ∀ f : LsRegPost, conditionPassed f.cond s.cpsr = true →
      goes (row.1 f) row.2 f.rd f.rn (readReg s f.rn)
        (near f.u (readReg s f.rn) (shiftImm f.shift f.shiftImm.toNat (readReg s f.rm) s.cpsr.c).value) true) ∧
    (∀ f : HwReg, conditionPassed f.cond s.cpsr = true →
      let moved := near f.u (readReg s f.rn) (readReg s f.rm)
      goes (.strhReg f) .half f.rd f.rn (if f.p then moved else readReg s f.rn) moved (!f.p || f.w)) ∧
    (∀ f : HwImm, conditionPassed f.cond s.cpsr = true →
      let moved := near f.u (readReg s f.rn) ((f.immHi ++ f.immLo : BitVec 8).setWidth 32)
      goes (.strhImm f) .half f.rd f.rn (if f.p then moved else readReg s f.rn) moved (!f.p || f.w))

/-- SWP, SWPB (spec/45_arm_load_store.md R300, R301; spec/20_memory.md R82): the old contents go to Rd as a load would give
them, the low bytes of Rm to memory, unrotated; two N cycles and the internal one; nothing else changes. -/
def Obligations.swaps : Prop :=
  ∀ (f : Swp) (s : State), conditionPassed f.cond s.cpsr = true → f.check = none → CanAdvance s → s.mem.wf = true →
    let goes (i : Instr) (op : LoadOp) : Prop := QuietAt .swap op.size (readReg s f.rn) s →
      ∃ s1, Stored op.size (readReg s f.rn) (readReg s f.rm) s s1 ∧
        s1 = { settled (spend 2 0 0 0 s) with mem := s1.mem } ∧
        exec i s = .next (forward (writeReg (charges s.params.cycles.swap s1) f.rd
          (op.value (readReg s f.rn) (portLoad s.mem op.size (readReg s f.rn)))))
    goes (.swp f) .word ∧ goes (.swpb f) .byte

/-- The Data Abort of a single transfer or swap (spec/20_memory.md R80 to R82; spec/40_fetch_decode_dispatch.md R180;
spec/45_arm_load_store.md R283; spec/49_thumb_memory_branch.md R400; spec/60_exceptions.md R451, R470, R472, R511): for every such
instruction, ARM and Thumb, whose access aborts, r14 of ABORT takes pc + 8 in both states, the SPSR of ABORT the old CPSR,
AbortAddr the address; neither the destination nor the base nor a flag is written and, by the interface's choice, nothing is
stored. When the catch mask holds the Data Abort nothing is entered: the pc is left, the slots are dropped, and only the cycles
of the access and the fault flags are changed; the mark that says the step was a halt is the model's own (log 2). -/
def Obligations.dataAborts : Prop :=
  ∀ (i : Instr) (k : Access) (sz : Size) (a : Word) (s : State), i.access s = some (k, sz, a) → i.Ready s →
    (sz = .half → a.getLsbD 0 = false) → AbortsAt .n k sz a s →
    (caught .dataAbort s = false → QuietRefill 16#32 false s →
      ∃ t, exec i s = .next t ∧ RegsExcept [.lr 4] s t ∧ readPhys t.regs (.lr 4) = s.pc + 8#32 ∧
        t.spsr = s.spsr.set 4 s.cpsr.word ∧ t.cpsr = { s.cpsr with m := .abort, t := false, i := true } ∧
        t.pc = 16#32 ∧ t.fault.abortAddr = a ∧ SameBytes s t ∧ t.acc = s.acc ∧ t.coproc = s.coproc) ∧
    (caught .dataAbort s = true → exec i s = .next { spend (if k = .swap then 2 else 1) 0 0 0 s with
      fault := { s.fault with aborted := some .data, abortAddr := a }
      pipe := { s.pipe with valid := false }
      dbg := { s.dbg with halt := some (.caught .dataAbort) } })

/-- The forms the spec gives no meaning are refused once the condition has passed, whatever the state (spec/
93_implementation_defined.md U3, U4, U6, U8, U9, U12, U14, U15, U17, U18), LDC and STC when their handler has answered that it
handles them (log 18). That a form its fields refuse is refused also where its SPSR access or its exception return would be
`fault InvalidMode` (MRS with Rd = r15, MSR of the SPSR from r15, LDM(3) with a refused base, format A3 with r15) is the
model's choice (log 10, DESIGN CHOICE). Every halfword transfer at an odd address is refused (spec/20_memory.md R75, U1), and so
is a plain advance from the last instruction of the address space (spec/10_state.md R30, U30): a failed condition, an operation
that writes a register; whatever else goes on from there has refilled the slots, or was stopped by the catch mask. -/
def Obligations.refusedForms : Prop :=
  (∀ (i : Instr) (r : Restriction) (s : State), i.restriction = some r → (∀ f, i ≠ .ldc f) → (∀ f, i ≠ .stc f) →
    (∀ c, i.cond = some c → conditionPassed c s.cpsr = true) → exec i s = .refused (.form r)) ∧
  (∀ (i : Instr) (w : Word) (f : CpLs) (call : HandlerCall) (h : Handler) (r : Restriction) (s : State),
    ((i = .ldc f ∧ call = .ldc w) ∨ (i = .stc f ∧ call = .stc w)) → encode i = .arm w → i.restriction = some r →
    conditionPassed f.cond s.cpsr = true → s.coproc[f.cp.toFin] = .bound h →
    (callHandler f.cp h call s).result = .handled → exec i s = .refused (.form r)) ∧
  (∀ (i : Instr) (k : Access) (a : Word) (s : State), i.access s = some (k, .half, a) → a.getLsbD 0 = true → i.Ready s →
    exec i s = .refused .oddHalfword) ∧
  (∀ s : State, ¬ CanAdvance s →
    (∀ (i : Instr) (c : Cond), i.cond = some c → conditionPassed c s.cpsr = false → exec i s = .refused .wrapAtTop) ∧
    (∀ row ∈ valueRows, ∀ f : A1, conditionPassed f.cond s.cpsr = true → f.rd ≠ 15#4 →
      exec (row.1 f) s = .refused .wrapAtTop) ∧
    (∀ f : T3, exec (.tMovImm f) s = .refused .wrapAtTop) ∧
    (∀ (i : Instr) (t : State), exec i s = .next t →
      (t.pipe.valid = true ∧ t.pipe.lastFetch = { valid := true, addr := t.pc + isz t, size := isz t }) ∨
      (t.pipe.valid = false ∧ t.pc = s.pc ∧ ∃ e, t.dbg.halt = some (.caught e) ∧ caught e s = true)))

/-- LDM(1) (spec/46_arm_block_transfer.md R310, R311, R317; spec/20_memory.md R74, R85): each listed register takes the word at
its place in the ascending order, the base its written-back value when it is not loaded, r15 is a branch that leaves T as it
is; one N, n - 1 S and the internal cycle. No other register, no flag and no byte of memory changes. -/
def Obligations.loadMultiple : Prop :=
  ∀ (f : Block) (s : State), conditionPassed f.cond s.cpsr = true → (Instr.ldm1 f).restriction = none →
    (f.list.getLsbD 15 = false → CanAdvance s) →
    let n := countBelow f.list 16
    let start := blockStart f.p f.u (readReg s f.rn) n
    QuietWords .read n start s →
    ∃ s1 : State, s1 = { charges s.params.cycles.loadMultiple (settled (spend 1 (n - 1) 0 0 s)) with regs := s1.regs } ∧
      (∀ r : RegNum, r ≠ 15#4 → readReg s1 r =
        if f.list.getLsbD r.toNat then portLoad s.mem .word (wordOf f.list start r.toNat)
        else if f.w = true ∧ r = f.rn then
          (if f.u then readReg s f.rn + BitVec.ofNat 32 (4 * n) else readReg s f.rn - BitVec.ofNat 32 (4 * n))
        else readReg s r) ∧
      (∀ p, (∀ r, physOf s.cpsr.m.bank r ≠ some p) → readPhys s1.regs p = readPhys s.regs p) ∧
      exec (.ldm1 f) s =
        if f.list.getLsbD 15 then
          (if aligned s.cpsr.t (portLoad s.mem .word (wordOf f.list start 15))
            then .next (branchTo (portLoad s.mem .word (wordOf f.list start 15)) s1) else .refused .misalignedPc)
        else .next (forward s1)

/-- LDM(2) (spec/46_arm_block_transfer.md R310, R314; spec/10_state.md R26): each listed register of the User bank takes its
word, whatever the mode; no other register changes, nor the base. In USER and SYSTEM mode it is U15. -/
def Obligations.loadMultipleUser : Prop :=
  ∀ (f : BlockUser) (s : State), conditionPassed f.cond s.cpsr = true → (Instr.ldm2 f).restriction = none →
    let n := countBelow f.list 15
    let start := blockStart f.p f.u (readReg s f.rn) n
    ((s.cpsr.m = .user ∨ s.cpsr.m = .system) → exec (.ldm2 f) s = .refused .userBankMode) ∧
    (s.cpsr.m ≠ .user → s.cpsr.m ≠ .system → CanAdvance s → QuietWords .read n start s →
      ∃ s1 : State, exec (.ldm2 f) s = .next (forward s1) ∧
        s1 = { charges s.params.cycles.loadMultiple (settled (spend 1 (n - 1) 0 0 s)) with regs := s1.regs } ∧
        (∀ r : RegNum, f.list.getLsbD r.toNat = true →
          readUser s1 r = portLoad s.mem .word (wordOf f.list start r.toNat)) ∧
        (∀ p, (∀ r : RegNum, f.list.getLsbD r.toNat = true → physOf 0 r ≠ some p) →
          readPhys s1.regs p = readPhys s.regs p))

/-- LDM(3) (spec/46_arm_block_transfer.md R310, R315; spec/60_exceptions.md R474): the listed registers of the mode before the
return are loaded and the base written back, then CPSR <- SPSR and the branch to the last word, in the instruction set
restored. In USER and SYSTEM mode, and when the SPSR holds no mode, `fault InvalidMode`. That a target misaligned for the
instruction set restored is refused (U10) and not masked, and that the fault comes before that refusal, are the model's choices
(log 10, DEDUCED and DESIGN CHOICE). -/
def Obligations.loadMultipleReturn : Prop :=
  ∀ (f : BlockUser) (s : State), conditionPassed f.cond s.cpsr = true → (Instr.ldm3 f).restriction = none →
    let n := countBelow (returnList f) 16
    let start := blockStart f.p f.u (readReg s f.rn) n
    QuietWords .read n start s →
    ∃ s1 : State, s1 = { charges s.params.cycles.loadMultiple (settled (spend 1 (n - 1) 0 0 s)) with regs := s1.regs } ∧
      (∀ r : RegNum, r ≠ 15#4 → readReg s1 r =
        if f.list.getLsbD r.toNat then portLoad s.mem .word (wordOf (returnList f) start r.toNat)
        else if f.w = true ∧ r = f.rn then
          (if f.u then readReg s f.rn + BitVec.ofNat 32 (4 * n) else readReg s f.rn - BitVec.ofNat 32 (4 * n))
        else readReg s r) ∧
      (∀ p, (∀ r, physOf s.cpsr.m.bank r ≠ some p) → readPhys s1.regs p = readPhys s.regs p) ∧
      exec (.ldm3 f) s = toPc true (portLoad s.mem .word (wordOf (returnList f) start 15)) s1

/-- STM(1) and STM(2) (spec/46_arm_block_transfer.md R310, R312, R316, R317; spec/20_memory.md R74, R85): the listed registers,
of the current bank and of the User bank, go in ascending order to ascending words; a listed base is stored as it was; r15
stores pc + STORE_PC_OFFSET; STM(1) writes the base back. No other byte, no other register and no flag changes. In USER and
SYSTEM mode STM(2) is U15. That the row's cycles are charged after all the words are stored is the model's choice (log 7,
DESIGN CHOICE). -/
def Obligations.storeMultiple : Prop :=
  ∀ (f : Block) (s : State), conditionPassed f.cond s.cpsr = true → s.mem.wf = true →
    let n := countBelow f.list 16
    let start := blockStart f.p f.u (readReg s f.rn) n
    let pcValue := s.pc + pcOffset s.params.storePcOffset
    ((Instr.stm1 f).restriction = none → CanAdvance s → QuietWords .write n start s →
      ∃ s1, StoredList f.list start (fun r => if r = 15 then pcValue else readReg s (BitVec.ofNat 4 r)) s s1 ∧
        s1 = { settled (spend 1 (n - 1) 0 0 s) with mem := s1.mem } ∧
        let s2 := charges s.params.cycles.storeMultiple s1
        exec (.stm1 f) s = .next (forward (if f.w then writeReg s2 f.rn
          (if f.u then readReg s f.rn + BitVec.ofNat 32 (4 * n) else readReg s f.rn - BitVec.ofNat 32 (4 * n)) else s2))) ∧
    ((Instr.stm2 f).restriction = none → (s.cpsr.m = .user ∨ s.cpsr.m = .system) →
      exec (.stm2 f) s = .refused .userBankMode) ∧
    ((Instr.stm2 f).restriction = none → s.cpsr.m ≠ .user → s.cpsr.m ≠ .system → CanAdvance s → QuietWords .write n start s →
      ∃ s1, StoredList f.list start (fun r => if r = 15 then pcValue else readUser s (BitVec.ofNat 4 r)) s s1 ∧
        s1 = { settled (spend 1 (n - 1) 0 0 s) with mem := s1.mem } ∧
        exec (.stm2 f) s = .next (forward (charges s.params.cycles.storeMultiple s1)))

/-- An abort in a block transfer (spec/46_arm_block_transfer.md R319; spec/40_fetch_decode_dispatch.md R180;
spec/49_thumb_memory_branch.md R418 to R421): when the first words are quiet and word `j` aborts, no register, no flag and not
the base has been written and the Data Abort is taken from there; `j + 1` accesses have been made and no more; a load has
changed no byte of memory; a store has stored the registers of the words before the aborting one, and no other byte. -/
def Obligations.blockAborts : Prop :=
  ∀ (i : Instr) (k : Access) (n : Nat) (a : Word) (j : Nat) (s : State), i.block s = some (k, n, a) → i.Ready s →
    ((∃ f, i = .ldm2 f) ∨ (∃ f, i = .stm2 f) → s.cpsr.m.hasSpsr = true) → j < n → s.mem.wf = true →
    QuietWords k j a s → AbortsAt (if j = 0 then .n else .s) k .word (a + BitVec.ofNat 32 (4 * j)) s →
    ∃ s1, exec i s = .next (raiseState .dataAbort s1) ∧
      s1 = { spend 1 j 0 0 s with
        mem := s1.mem, fault := { s.fault with aborted := some .data, abortAddr := a + BitVec.ofNat 32 (4 * j) } } ∧
      (k = .read → SameBytes s s1) ∧
      (let value (user : Bool) (r : Nat) : Word := if r = 15 then s.pc + pcOffset s.params.storePcOffset
        else if user then readUser s (BitVec.ofNat 4 r) else readReg s (BitVec.ofNat 4 r)
       (∀ f, i = .stm1 f → StoredBefore f.list a j (value false) s1) ∧
       (∀ f, i = .stm2 f → StoredBefore f.list a j (value true) s1) ∧
       (∀ f, i = .tPush f → StoredBefore (pushList f) a j (value false) s1) ∧
       (∀ f, i = .tStmia f → StoredBefore f.list a j (value false) s1)) ∧
      (∀ x : Nat, (∀ l, l < j → ¬ ((accessBase .word (a + BitVec.ofNat 32 (4 * l))).toNat ≤ x ∧
          x < (accessBase .word (a + BitVec.ofNat 32 (4 * l))).toNat + 4)) → memGet s1.mem x = memGet s.mem x)

/-- A coprocessor instruction on an unbound slot (spec/47_arm_coprocessor_swi_undefined.md R322, R340): CDP, MRC, MCR, LDC and
STC take the Undefined exception and do nothing else; the registers and memory are unmodified but for what entry writes. -/
def Obligations.unboundCoprocessor : Prop :=
  ∀ (i : Instr) (c : Cond) (cp : BitVec 4) (s : State),
    ((∃ f : CpDp, i = .cdp f ∧ f.cond = c ∧ f.cp = cp) ∨ (∃ f : CpRt, (i = .mrc f ∨ i = .mcr f) ∧ f.cond = c ∧ f.cp = cp) ∨
      (∃ f : CpLs, (i = .ldc f ∨ i = .stc f) ∧ f.cond = c ∧ f.cp = cp)) →
    conditionPassed c s.cpsr = true → s.coproc[cp.toFin] = .unbound → caught .undefined s = false →
    exec i s = .next (entered .undef 4#32 (s.pc + isz s) s.cpsr.f s)

/-- What a handler's answer does (spec/47_arm_coprocessor_swi_undefined.md R320, R321, R323): the handler gets the whole
instruction word, and MCR's register value, once; not-handled raises Undefined; fault-triggered commits nothing and takes the
Data Abort when `Aborted` is data, else only retires. A scripted answer is chosen, and its value computed, from the core
registers and the SPSRs (spec/10_state.md R25, R41) and the call as they are when the handler is called; it records the call, performs its actions on what
R321 allows, and leaves the core as it was but for the accumulator, which is within its reach (spec/10_state.md R51); so does a
call that asks for a data word. What is scripted, and that a used-up script is free, is the model's (log 1, log 8). -/
def Obligations.coprocessorAnswers : Prop :=
  (∀ (i : Instr) (w : Word) (c : Cond) (cp : BitVec 4) (h : Handler) (call : HandlerCall) (s : State),
    ((∃ f : CpDp, i = .cdp f ∧ f.cond = c ∧ f.cp = cp ∧ call = .cdp w) ∨
      (∃ f : CpRt, i = .mrc f ∧ f.cond = c ∧ f.cp = cp ∧ call = .mrc w) ∨
      (∃ f : CpRt, i = .mcr f ∧ f.cond = c ∧ f.cp = cp ∧
        call = .mcr w (if f.rd = 15#4 then s.pc + pcOffset s.params.storePcOffset else readReg s f.rd)) ∨
      (∃ f : CpLs, i = .ldc f ∧ f.cond = c ∧ f.cp = cp ∧ call = .ldc w) ∨
      (∃ f : CpLs, i = .stc f ∧ f.cond = c ∧ f.cp = cp ∧ call = .stc w)) →
    encode i = .arm w → conditionPassed c s.cpsr = true → CanAdvance s → s.coproc[cp.toFin] = .bound h →
    let a := callHandler cp h call s
    (a.result = .notHandled → exec i s = .next (raiseState .undefined a.state)) ∧
    (a.result = .faultTriggered → exec i s =
      if a.state.fault.aborted = some .data then .next (raiseState .dataAbort a.state) else .next (forward a.state))) ∧
  (∀ (cp : BitVec 4) (h : Handler) (call : HandlerCall) (s : State) (choice : Choice CoprocReply)
      (rest : List (Choice CoprocReply)), h.replies = choice :: rest →
    let reply := choice.pick call s
    let a := callHandler cp h call s
    let s1 := { s with coproc := s.coproc.set cp.toFin (.bound { h with replies := rest, calls := call :: h.calls }) }
    (reply = .notHandled → a.result = .notHandled ∧ a.state = s1) ∧
    (∀ acts, reply = .faultTriggered acts → a.result = .faultTriggered ∧ a.state = acts.foldl (performHandler call) s1) ∧
    (∀ acts v k, reply = .handled acts v k → a.result = .handled ∧ a.value = v.eval call s ∧ a.words = k.val + 1 ∧
      a.state = acts.foldl (performHandler call) s1) ∧
    (a.state.regs = s.regs ∧ a.state.pc = s.pc ∧ a.state.cpsr = s.cpsr ∧ a.state.spsr = s.spsr ∧ a.state.pipe = s.pipe ∧
      a.state.ctr = s.ctr ∧ a.state.mem = s.mem ∧
      ((∀ acts, (reply = .faultTriggered acts ∨ ∃ v k, reply = .handled acts v k) → ∀ x y, .setAcc x y ∉ acts) →
        a.state.acc = s.acc))) ∧
  (∀ (cp : BitVec 4) (h : Handler) (call : HandlerCall) (s : State) (choice : Choice DataReply)
      (rest : List (Choice DataReply)), s.coproc[cp.toFin] = .bound h → h.data = choice :: rest →
    let reply := choice.pick call s
    let d := callData cp call s
    d = (reply.word.eval call s, reply.acts.foldl (performHandler call)
      { s with coproc := s.coproc.set cp.toFin (.bound { h with data := rest, calls := call :: h.calls }) }) ∧
    d.2.regs = s.regs ∧ d.2.pc = s.pc ∧ d.2.cpsr = s.cpsr ∧ d.2.spsr = s.spsr ∧ d.2.pipe = s.pipe ∧ d.2.ctr = s.ctr ∧
    d.2.mem = s.mem) ∧
  (∀ (call : HandlerCall) (s : State) (x y : HandlerWord) (yes no : Choice CoprocReply),
    (Choice.ifEq x y yes no).pick call s = if x.eval call s = y.eval call s then yes.pick call s else no.pick call s) ∧
  (∀ (call : HandlerCall) (s : State) (m : Mode) (n : RegNum) (e : SpsrMode),
    getReg m.number n s = some ((HandlerWord.reg m n).eval call s) ∧
    getSpsr e.mode.number s = some ((HandlerWord.spsr e).eval call s))

/-- CDP, MRC and MCR that their handler handled (spec/47_arm_coprocessor_swi_undefined.md R324, R327, R328, R330): CDP does
nothing to the core; MRC writes Rd, or N, Z, C, V when Rd is r15; MCR gives the handler Rd, or pc + STORE_PC_OFFSET for r15
(U11); each charges its row's internal and coprocessor cycles (`portContract`). -/
def Obligations.coprocessorRegisters : Prop :=
  (∀ (f : CpDp) (w : Word) (h : Handler) (s : State), encode (.cdp f) = .arm w → conditionPassed f.cond s.cpsr = true →
    CanAdvance s → s.coproc[f.cp.toFin] = .bound h →
    let a := callHandler f.cp h (.cdp w) s
    a.result = .handled → exec (.cdp f) s = .next (forward (charges s.params.cycles.cdp a.state))) ∧
  (∀ (f : CpRt) (w : Word) (h : Handler) (s : State), encode (.mrc f) = .arm w → conditionPassed f.cond s.cpsr = true →
    CanAdvance s → s.coproc[f.cp.toFin] = .bound h →
    let a := callHandler f.cp h (.mrc w) s
    let s1 := forward (charges s.params.cycles.mrc a.state)
    a.result = .handled → exec (.mrc f) s = .next (if f.rd = 15#4 then
        { s1 with cpsr := { s.cpsr with
          n := a.value.getLsbD 31, z := a.value.getLsbD 30, c := a.value.getLsbD 29, v := a.value.getLsbD 28 } }
      else writeReg s1 f.rd a.value)) ∧
  (∀ (f : CpRt) (w : Word) (h : Handler) (s : State), encode (.mcr f) = .arm w → conditionPassed f.cond s.cpsr = true →
    CanAdvance s → s.coproc[f.cp.toFin] = .bound h →
    let a := callHandler f.cp h
      (.mcr w (if f.rd = 15#4 then s.pc + pcOffset s.params.storePcOffset else readReg s f.rd)) s
    a.result = .handled → exec (.mcr f) s = .next (forward (charges s.params.cycles.mcr a.state)))

/-- LDC that its handler handled (spec/47_arm_coprocessor_swi_undefined.md R320, R325, R330, R331): the words from the address
on are read, the base is written back, and the handler is given each word with its number, in order, after all reads; its row's
cycles are charged (`portContract`). No flag, no other register and no byte of memory changes, but for what the interface does
at those cycles. When word `j` aborts, the Data Abort is taken, no word has been given and the base is unchanged. That the
cycles are charged after all the words are read is the model's choice (log 7, DESIGN CHOICE). -/
def Obligations.loadCoprocessor : Prop :=
  ∀ (f : CpLs) (w : Word) (h : Handler) (s : State), encode (.ldc f) = .arm w → conditionPassed f.cond s.cpsr = true →
    (Instr.ldc f).restriction = none → s.coproc[f.cp.toFin] = .bound h →
    let a := callHandler f.cp h (.ldc w) s
    let off := BitVec.ofNat 32 (4 * f.off8.toNat)
    let moved := if f.u then readReg s f.rn + off else readReg s f.rn - off
    let start := if f.p then moved else readReg s f.rn
    let row := s.params.cycles.coprocTransfer
    a.result = .handled →
    (CanAdvance s → QuietWords .read a.words start s →
      ∃ t, exec (.ldc f) s = .next t ∧
        (∃ h', t.coproc[f.cp.toFin] = .bound h' ∧ h'.calls =
          ((List.range a.words).map fun k => HandlerCall.ldcData w k (portLoad s.mem .word (start + BitVec.ofNat 32 (4 * k)))).reverse
            ++ HandlerCall.ldc w :: h.calls) ∧
        t.regs = (if f.w then writeReg s f.rn moved else s).regs ∧ t.pc = s.pc + isz s ∧ t.cpsr = s.cpsr ∧ t.spsr = s.spsr ∧
        t.ctr = charge 1 (a.words - 1) row.i row.c s.ctr ∧ t.mem = (charges row a.state).mem ∧
        (s.collab.internal = [] → s.collab.coprocCycle = [] → SameBytes s t)) ∧
    (∀ j, j < a.words → QuietWords .read j start s →
      AbortsAt (if j = 0 then .n else .s) .read .word (start + BitVec.ofNat 32 (4 * j)) s →
      exec (.ldc f) s = .next (raiseState .dataAbort { spend 1 j 0 0 a.state with
        fault := { a.state.fault with aborted := some .data, abortAddr := start + BitVec.ofNat 32 (4 * j) } }))

/-- STC that its handler handled (spec/47_arm_coprocessor_swi_undefined.md R320, R326, R330, R331): each word is asked of the
handler, in order, and stored; then its row's cycles are charged (`portContract`) and the base is written back. No flag, no other register and no other byte changes. When word `j` aborts, the
Data Abort is taken with `j + 1` words asked for, the first `j` stored and no other byte changed, and the base unchanged. That
the cycles are charged after all the words are stored is the model's choice (log 7, DESIGN CHOICE). -/
def Obligations.storeCoprocessor : Prop :=
  ∀ (f : CpLs) (w : Word) (h : Handler) (s : State), encode (.stc f) = .arm w → conditionPassed f.cond s.cpsr = true →
    (Instr.stc f).restriction = none → s.coproc[f.cp.toFin] = .bound h → s.mem.wf = true →
    let a := callHandler f.cp h (.stc w) s
    let off := BitVec.ofNat 32 (4 * f.off8.toNat)
    let moved := if f.u then readReg s f.rn + off else readReg s f.rn - off
    let start := if f.p then moved else readReg s f.rn
    let asked (n : Nat) (x : State) : Prop := ∃ h', x.coproc[f.cp.toFin] = .bound h' ∧ h'.calls =
      ((List.range n).map fun k => HandlerCall.stcData w k).reverse ++ HandlerCall.stc w :: h.calls
    let kept (x : State) : Prop := x.regs = s.regs ∧ x.pc = s.pc ∧ x.cpsr = s.cpsr ∧ x.spsr = s.spsr ∧ x.params = s.params
    a.result = .handled →
    (CanAdvance s → QuietWords .write a.words start s →
      ∃ s1, StoredWords start (askedWords f.cp w a.words 0 a.state) s s1 ∧ asked a.words s1 ∧ kept s1 ∧
        s1.ctr = charge 1 (a.words - 1) 0 0 s.ctr ∧
        let s2 := charges s.params.cycles.coprocTransfer s1
        exec (.stc f) s = .next (forward (if f.w then writeReg s2 f.rn moved else s2))) ∧
    (∀ j, j < a.words → QuietWords .write j start s →
      AbortsAt (if j = 0 then .n else .s) .write .word (start + BitVec.ofNat 32 (4 * j)) s →
      ∃ s1, exec (.stc f) s = .next (raiseState .dataAbort s1) ∧
        StoredWords start (askedWords f.cp w j 0 a.state) s s1 ∧ asked (j + 1) s1 ∧ kept s1 ∧
        s1.ctr = charge 1 j 0 0 s.ctr ∧ s1.fault.aborted = some .data)

/-- Exceptions at a boundary (spec/60_exceptions.md R450, R460, R461, R470, R472, R473; spec/40_fetch_decode_dispatch.md R160,
R163): the highest-priority pending one of Data Abort, FIQ, IRQ, Prefetch Abort is entered, masked by F and I, below Reset; r14
takes pc + 4, F is set by FIQ alone; the step retires nothing. -/
def Obligations.boundaryExceptions : Prop :=
  ∀ s : State, haltAsked s = none → s.pipe.valid = true → s.dbg.catchMask = 0#9 → s.lines.resetReq = false →
    let s0 := clearHalt s
    let fiq := s.lines.fiqLine = true ∧ s.cpsr.f = false
    let irq := s.lines.irqLine = true ∧ s.cpsr.i = false
    (s.fault.aborted = some .data → step s = .next (entered .abort 0x10#32 (s.pc + 4#32) s.cpsr.f s0)) ∧
    (s.fault.aborted ≠ some .data → fiq → step s = .next (entered .fiq 0x1C#32 (s.pc + 4#32) true s0)) ∧
    (s.fault.aborted ≠ some .data → ¬ fiq → irq → step s = .next (entered .irq 0x18#32 (s.pc + 4#32) s.cpsr.f s0)) ∧
    (s.fault.aborted ≠ some .data → ¬ fiq → ¬ irq → s.pipe.decoded.pabort = true →
      step s = .next (entered .abort 0x0C#32 (s.pc + 4#32) s.cpsr.f s0))

/-- The halts (spec/40_fetch_decode_dispatch.md R161; spec/60_exceptions.md R510, R511): a stop flag or a used-up budget halts
before anything else; a caught exception at a boundary halts with the condition still pending and no state changed, the slots
not refilled (spec/00_scope.md R13, log 12); a caught exception inside an instruction, be it SWI, an undefined word or a
coprocessor instruction that no handler takes, leaves the pc at it, drops the slots and enters nothing. The mark that says the
step was a halt is the model's own (log 2). -/
def Obligations.halts : Prop :=
  let stopped (e : Exc) (s : State) : State :=
    { s with pipe := { s.pipe with valid := false }, dbg := { s.dbg with halt := some (.caught e) } }
  (∀ s : State, s.dbg.stopFlag = true → step s = .next { s with dbg := { s.dbg with halt := some .stop } }) ∧
  (∀ s : State, s.dbg.stopFlag = false → s.dbg.stepBudget = some 0 →
    step s = .next { s with dbg := { s.dbg with halt := some .budget } }) ∧
  (∀ (s : State) (e : Exc), haltAsked s = none → s.dbg.catchMask.getLsbD e.index = true →
    pendingException (if s.pipe.valid then clearHalt s else refill (clearHalt s)) = some e →
    step s = .next { s with dbg := { s.dbg with halt := some (.caught e) } }) ∧
  (∀ (f : Swi) (s : State), conditionPassed f.cond s.cpsr = true → s.dbg.catchMask.getLsbD 2 = true →
    exec (.swi f) s = .next (stopped .swi s)) ∧
  (∀ (f : T16) (s : State), s.dbg.catchMask.getLsbD 2 = true → exec (.tSwi f) s = .next (stopped .swi s)) ∧
  (∀ (f : UndefSpace) (s : State), conditionPassed f.cond s.cpsr = true → s.dbg.catchMask.getLsbD 1 = true →
    exec (.undefined f) s = .next (stopped .undefined s)) ∧
  (∀ (c : Cond) (s : State), conditionPassed c s.cpsr = true → s.dbg.catchMask.getLsbD 1 = true →
    execDecoded (.undefined (some c)) s = .next (stopped .undefined s) ∧
      execDecoded (.undefined none) s = .next (stopped .undefined s)) ∧
  (∀ (i : Instr) (w : Word) (c : Cond) (cp : BitVec 4) (call : HandlerCall) (s : State),
    ((∃ f : CpDp, i = .cdp f ∧ f.cond = c ∧ f.cp = cp ∧ call = .cdp w) ∨
      (∃ f : CpRt, i = .mrc f ∧ f.cond = c ∧ f.cp = cp ∧ call = .mrc w) ∨
      (∃ f : CpRt, i = .mcr f ∧ f.cond = c ∧ f.cp = cp ∧
        call = .mcr w (if f.rd = 15#4 then s.pc + pcOffset s.params.storePcOffset else readReg s f.rd)) ∨
      (∃ f : CpLs, i = .ldc f ∧ f.cond = c ∧ f.cp = cp ∧ call = .ldc w) ∨
      (∃ f : CpLs, i = .stc f ∧ f.cond = c ∧ f.cp = cp ∧ call = .stc w)) →
    encode i = .arm w → conditionPassed c s.cpsr = true → s.dbg.catchMask.getLsbD 1 = true →
    (s.coproc[cp.toFin] = .unbound → exec i s = .next (stopped .undefined s)) ∧
    (∀ h, s.coproc[cp.toFin] = .bound h → (callHandler cp h call s).result = .notHandled →
      exec i s = .next (stopped .undefined (callHandler cp h call s).state)))

/-- A warm reset (spec/70_reset_and_hazards.md R521; spec/60_exceptions.md R471): with `ResetReq` set, whatever else is pending,
the step changes exactly r14 and SPSR of SVC (values the spec leaves open, log 6), M, T, I, the pc, the slots and `LastFetch`,
the two refill cycles, `ResetReq`, `Reseted`, and, through the interface, `Aborted`. The interface is quiet at the vector. -/
def Obligations.warmReset : Prop :=
  ∀ s : State, haltAsked s = none → s.pipe.valid = true → s.dbg.catchMask.getLsbD 0 = false → s.lines.resetReq = true →
    QuietRefill 0#32 false s →
    ∃ r q k, step s = .next { s with
      regs := writePhys s.regs (.lr 3) r
      spsr := s.spsr.set 3 q
      cpsr := { s.cpsr with m := .svc, t := false, i := true }
      pc := 0#32
      fault := { s.fault with aborted := none, reseted := true }
      lines := { s.lines with resetReq := false }
      ctr := { s.ctr with numN := s.ctr.numN + 1, numS := s.ctr.numS + 1, cost := s.ctr.cost + 2 }
      pipe := {
        decoded := { word := portLoad s.mem .word 0#32, pabort := false }
        loaded := { word := portLoad s.mem .word 4#32, pabort := false }
        valid := true
        lastFetch := { valid := true, addr := 4#32, size := 4#32 } }
      dbg := { s.dbg with halt := none }
      freeCount := k }

/-- A cold reset (spec/70_reset_and_hazards.md R520; spec/10_state.md R58), over any memory and any quiet collaborators: every
piece of state has the value of the table of R58, r14 and SPSR of SVC are values the spec leaves open (log 6), and the slots
hold the words the memory gives at the vector. `State.reset` is that state over a memory that lists nothing, with quiet
collaborators and the default parameters: its r14 and SPSR of SVC are the values log 3 chooses, its slots the zeros that log 5
chooses for unlisted bytes. -/
def Obligations.coldResets : Prop :=
  let atReset (r q : Word) (k : Nat) (mem : Memory) (collab : Collaborators) (params : Params) (s : State) : Prop :=
    s.pc = 0#32 ∧ s.cpsr.word = 0x00000093#32 ∧ (∀ p, readPhys s.regs p = if p = .lr 3 then r else 0#32) ∧
    (∀ b : Fin 7, s.spsr[b] = if b = 3 then q else 0#32) ∧
    s.fault = { aborted := none, abortAddr := 0#32, reseted := true } ∧ s.inted = 0#2 ∧ s.lastInted = 0#2 ∧
    s.pipe = {
      decoded := { word := portLoad mem .word 0#32, pabort := false }
      loaded := { word := portLoad mem .word 4#32, pabort := false }
      valid := true
      lastFetch := { valid := true, addr := 4#32, size := 4#32 } } ∧
    s.ctr = { numS := 1, numN := 1, numI := 0, numC := 0, numF := 0, numInstrs := 0, now := 0, cost := 2 } ∧
    s.acc = 0#64 ∧ (∀ b : Fin 16, s.coproc[b] = .unbound) ∧ s.sched = { events := [], nextHandle := 0 } ∧
    s.lines = { resetReq := false, fiqLine := false, irqLine := false } ∧
    s.dbg = { catchMask := 0#9, stopFlag := false, stepBudget := none, halt := none } ∧
    s.mem = mem ∧ s.collab = collab ∧ s.params = params ∧ s.freeCount = k
  (∀ (mem : Memory) (collab : Collaborators) (params : Params), collab.clearsAborted = true → collab.regions = [] →
    ∃ r q k, atReset r q k mem collab params (coldReset mem collab params)) ∧
  atReset 0#32 0#32 0 [] .quiet defaultParams State.reset ∧
  (portLoad [] .word 0#32 = 0#32 ∧ portLoad [] .word 4#32 = 0#32)

/-- The accessors of the session (spec/10_state.md R23 to R28, R31, R38, R41): for each of the seven modes, by the numbers of R23,
a write of a register of the mode succeeds, reads back and leaves every other physical register; FIQ has r8 to r12 of its own
and the six others share theirs, r0 to r7 are shared by all, r13 and r14 by none; an SPSR round-trips for five modes and fails
for USER and SYSTEM; a CPSR write with a mode number of R23 succeeds and the mode sees its own r13 and r14; an invalid mode
number fails. A write of r15 is stored aligned, drops the slots and reads back. While the slots are valid r15 reads pc under the
decision D2 that R28 cites, and pc + 8 or pc + 4 under the words of R28: the two differ, and that a parameter names the one in
force is the model's choice (log 11, DESIGN CHOICE). -/
def Obligations.sessionAccess : Prop :=
  (Mode.user.number = 0b10000#5 ∧ Mode.fiq.number = 0b10001#5 ∧ Mode.irq.number = 0b10010#5 ∧ Mode.svc.number = 0b10011#5 ∧
    Mode.abort.number = 0b10111#5 ∧ Mode.undef.number = 0b11011#5 ∧ Mode.system.number = 0b11111#5) ∧
  (∀ (mode : Mode) (n : RegNum) (v : Word) (s : State), n ≠ 15#4 →
    ∃ t, setReg mode.number n v s = some t ∧ getReg mode.number n t = some v ∧ t = { s with regs := t.regs } ∧
      (∀ p, physOf mode.bank n ≠ some p → readPhys t.regs p = readPhys s.regs p) ∧
      (∀ (other : Mode) (k : RegNum), k ≠ 15#4 →
        getReg other.number k t =
          if k = n ∧ (n.toNat < 8 ∨ mode = other ∨ (n.toNat < 13 ∧ mode ≠ .fiq ∧ other ≠ .fiq)) then some v
          else getReg other.number k s)) ∧
  (∀ (mode : Mode) (v : Word) (s : State), ∃ t, setReg mode.number 15#4 v s = some t ∧
    t.pc = (if s.cpsr.t then v &&& 0xFFFFFFFE#32 else v &&& 0xFFFFFFFC#32) ∧ t.pipe.valid = false ∧
    t.pipe.lastFetch.valid = false ∧ t = { s with pc := t.pc, pipe := t.pipe } ∧ getReg mode.number 15#4 t = some t.pc) ∧
  (∀ (mode : Mode) (s : State),
    (s.params.getRegPc = .ahead → s.pipe.valid = true →
      getReg mode.number 15#4 s = some (s.pc + if s.cpsr.t then 4#32 else 8#32)) ∧
    (s.params.getRegPc = .execute → getReg mode.number 15#4 s = some s.pc)) ∧
  (∀ (m : BitVec 5) (n : RegNum) (v : Word) (s : State), (∀ mode : Mode, m ≠ mode.number) →
    getReg m n s = none ∧ setReg m n v s = none ∧ getSpsr m s = none ∧ setSpsr m v s = none) ∧
  (∀ (mode : Mode) (v : Word) (s : State), mode ≠ .user → mode ≠ .system →
    ∃ t, setSpsr mode.number v s = some t ∧ getSpsr mode.number t = some v ∧
      t = { s with spsr := t.spsr } ∧ ∀ b : Fin 7, b ≠ mode.bank → t.spsr[b] = s.spsr[b]) ∧
  (∀ (v : Word) (s : State), getSpsr Mode.user.number s = none ∧ getSpsr Mode.system.number s = none ∧
    setSpsr Mode.user.number v s = none ∧ setSpsr Mode.system.number v s = none) ∧
  (∀ (mode : Mode) (v : Word) (s : State), v.extractLsb' 0 5 = mode.number →
    ∃ t, setCpsr v s = some t ∧ t.cpsr.m = mode ∧ t.cpsr.word = v &&& 0xF00000FF#32 ∧ t.regs = s.regs ∧ t.spsr = s.spsr ∧
      readReg t 13#4 = s.regs.sp[mode.bank] ∧ readReg t 14#4 = s.regs.lr[mode.bank]) ∧
  (∀ (v : Word) (s : State), (∀ mode : Mode, v.extractLsb' 0 5 ≠ mode.number) → setCpsr v s = none)

/-- `Schedule` and `Cancel` (spec/60_exceptions.md R495, R496, R498): the new node, at the clock plus the delay, goes after every
node whose trigger time is not later, the others keep their order; a cancelled handle is gone and the others stay. That the
handle returned is the next one of a counter is the model's choice (log 13): the spec gives no value for it. -/
def Obligations.scheduler : Prop :=
  (∀ (delay callback : Nat) (s : State), eventsOk s.sched = true →
    ∃ before after : List EventNode,
      let node : EventNode := { handle := s.sched.nextHandle, trigger := s.ctr.now + delay, callback }
      s.sched.events = before ++ after ∧ (∀ n ∈ before, n.trigger ≤ node.trigger) ∧ (∀ n ∈ after, node.trigger < n.trigger) ∧
      (schedule delay callback s).1 = node.handle ∧
      (schedule delay callback s).2 =
        { s with sched := { events := before ++ node :: after, nextHandle := s.sched.nextHandle + 1 } } ∧
      eventsOk (schedule delay callback s).2.sched = true) ∧
  (∀ (h : Nat) (s : State), ∃ es, cancel h s = { s with sched := { s.sched with events := es } } ∧
    (∀ n, n ∈ es ↔ n ∈ s.sched.events ∧ n.handle ≠ h) ∧ es.Sublist s.sched.events)

/-- The event pass (spec/60_exceptions.md R495, R501, R502): no node of the snapshot is left, whatever the callbacks do, and
what is due and still queued was scheduled during the pass; callbacks that neither schedule nor cancel are invoked one after
another in the order of the queue, which is ascending in trigger time, equal times in the order of insertion, and exactly the
due nodes are removed; a node scheduled by a callback stays queued, even with delay 0. The model's choices here: handles count
up (log 13), what a callback does is scripted in a table (log 1), and a reference outside it does nothing (log 19). -/
def Obligations.eventPasses : Prop :=
  (∀ s : State, eventsOk s.sched = true →
    (∀ n ∈ s.sched.events, n.trigger ≤ s.ctr.now → ∀ n' ∈ (eventPass s).sched.events, n'.handle ≠ n.handle) ∧
    (∀ n ∈ (eventPass s).sched.events, n.trigger ≤ s.ctr.now → s.sched.nextHandle ≤ n.handle) ∧
    eventsOk (eventPass s).sched = true) ∧
  (∀ s : State, eventsOk s.sched = true →
    (∀ acts ∈ s.collab.callbacks, ∀ x ∈ acts, (∀ d c, x ≠ .act (.schedule d c)) ∧ ∀ h, x ≠ .act (.cancel h)) →
    let due := s.sched.events.filter fun n => decide (n.trigger ≤ s.ctr.now)
    eventPass s = due.foldl (fun x n => ((s.collab.callbacks[n.callback]?).getD []).foldl performCallback x)
      { s with sched := { s.sched with events := s.sched.events.filter fun n => decide (s.ctr.now < n.trigger) } } ∧
    due.Pairwise fun a b => a.trigger ≤ b.trigger) ∧
  (∀ (d1 d2 c1 c2 : Nat) (s : State), eventsOk s.sched = true → d1 ≤ d2 →
    let s1 := (schedule d2 c2 (schedule d1 c1 s).2).2
    ∃ xs ys zs, s1.sched.events = xs ++ { handle := s.sched.nextHandle, trigger := s.ctr.now + d1, callback := c1 } ::
      (ys ++ { handle := s.sched.nextHandle + 1, trigger := s.ctr.now + d2, callback := c2 } :: zs)) ∧
  (∀ (s : State) (n : EventNode) (rest : List EventNode) (delay cb : Nat), eventsOk s.sched = true →
    s.sched.events = n :: rest → n.trigger ≤ s.ctr.now → (∀ m ∈ rest, s.ctr.now < m.trigger) →
    s.collab.callbacks[n.callback]? = some [.act (.schedule delay cb), .act (.setIrq true)] →
    (eventPass s).lines.irqLine = true ∧
      (eventPass s).sched.events =
        insertEvent { handle := s.sched.nextHandle, trigger := s.ctr.now + delay, callback := cb } rest)

/-- `Abort(address)`, and the fetch that aborts (spec/60_exceptions.md R465, R466; spec/10_state.md R43, R44;
spec/20_memory.md R83; spec/40_fetch_decode_dispatch.md R165, R170): within one fault window the first call counts, later ones of
its kind change nothing, and a data fault replaces a prefetch mark, never the reverse. A fetch that aborts marks its slot and
raises nothing; a refill whose two fetches abort leaves both slots marked, and a flush and refill that meet no abort leave no
mark. -/
def Obligations.abortCalls : Prop :=
  (∀ (k : AbortKind) (a : Word) (rest : List Word) (s : State), s.fault.aborted = none →
    rest.foldl (fun s x => abortCall k x s) (abortCall k a s) =
      { s with fault := { s.fault with aborted := some k, abortAddr := a } }) ∧
  (∀ (a : Word) (s : State), s.fault.aborted = some .prefetch → abortCall .data a s =
    { s with fault := { s.fault with aborted := some .data, abortAddr := a } }) ∧
  (∀ (k : AbortKind) (a : Word) (s : State), s.fault.aborted = some .data → abortCall k a s = s) ∧
  (∀ (a : Word) (s : State),
    let c := fetchClass a s.pipe.lastFetch
    let s1 := countAccess c 1 s
    let after (f : FaultFlags) : State :=
      { s1 with fault := f, pipe := { s.pipe with lastFetch := { valid := true, addr := a, size := isz s } } }
    (QuietAt .fetch (fetchSize s) a s →
      fetch a s = ({ word := portLoad s.mem (fetchSize s) a, pabort := false }, after (clean s.fault))) ∧
    (AbortsAt c .fetch (fetchSize s) a s →
      (fetch a s).1.pabort = true ∧
        (fetch a s).2 = after { s.fault with aborted := some .prefetch, abortAddr := a })) ∧
  (∀ s : State,
    (AbortsAt .n .fetch (fetchSize s) s.pc s → AbortsAt .s .fetch (fetchSize s) (s.pc + isz s) s →
      (refill s).pipe.decoded.pabort = true ∧ (refill s).pipe.loaded.pabort = true ∧
        (refill s).regs = s.regs ∧ (refill s).cpsr = s.cpsr ∧ (refill s).pc = s.pc ∧
        (refill s).fault.aborted = some .prefetch ∧ (refill s).fault.abortAddr = s.pc + isz s) ∧
    (AbortsAt .n .fetch (fetchSize s) s.pc s → QuietAt .fetch (fetchSize s) (s.pc + isz s) s →
      (refill s).pipe.decoded.pabort = true ∧ (refill s).pipe.loaded.pabort = false) ∧
    (QuietAt .fetch (fetchSize s) s.pc s → QuietAt .fetch (fetchSize s) (s.pc + isz s) s →
      (refill s).pipe.decoded.pabort = false ∧ (refill s).pipe.loaded.pabort = false))

/-- The Thumb shifts (spec/48_thumb_data.md R350 to R353, R364 to R366, R369; spec/41_shifter_alu_flags.md R206, R221): Rd takes
the shifted value, N and Z its own, C the shifter carry-out, V unchanged; their row's cycles are charged (`portContract`). The
whole next state is given. -/
def Obligations.thumbShifts : Prop :=
  ∀ s : State, CanAdvance s →
    (∀ f : T1,
      let goes (i : Instr) (ty : ShiftType) : Prop :=
        let b := shiftImm ty f.off5.toNat (readReg s (low f.rs)) s.cpsr.c
        exec i s = .next (forward (withFlags true b.value b.carry s.cpsr.v
          (writeReg (charges s.params.cycles.dataImm s) (low f.rd) b.value)))
      goes (.tLslImm f) .lsl ∧ goes (.tLsrImm f) .lsr ∧ goes (.tAsrImm f) .asr) ∧
    (∀ f : T4,
      let goes (i : Instr) (ty : ShiftType) : Prop :=
        let b := shiftReg ty ((readReg s (low f.rs)).toNat % 256) (readReg s (low f.rd)) s.cpsr.c
        exec i s = .next (forward (withFlags true b.value b.carry s.cpsr.v
          (writeReg (charges s.params.cycles.dataReg s) (low f.rd) b.value)))
      goes (.tLslReg f) .lsl ∧ goes (.tLsrReg f) .lsr ∧ goes (.tAsrReg f) .asr ∧ goes (.tRorReg f) .ror)

/-- The Thumb additions, subtractions and comparisons (spec/48_thumb_data.md R350, R354 to R357, R359 to R361, R367, R368, R371 to
R373, R379; spec/41_shifter_alu_flags.md R221): the result modulo 2^32, C the unsigned carry or NOT borrow, V set exactly when
the exact signed result does not fit; the comparisons write no register. The whole next state is given. -/
def Obligations.thumbArithmetic : Prop :=
  ∀ s : State, CanAdvance s →
    let s0 := charges s.params.cycles.dataImm s
    let adds (i : Instr) (rd : LoReg) (a b : Word) (cin : Bool) : Prop :=
      let r := a + b + BitVec.ofNat 32 cin.toNat
      exec i s = .next (forward (withFlags true r (decide (4294967296 ≤ a.toNat + b.toNat + cin.toNat))
        (overflows (a.toInt + b.toInt + cin.toNat)) (writeReg s0 (low rd) r)))
    let subtracts (i : Instr) (rd : LoReg) (a b : Word) (borrow : Bool) : Prop :=
      let r := a - b - BitVec.ofNat 32 borrow.toNat
      exec i s = .next (forward (withFlags true r (decide (b.toNat + borrow.toNat ≤ a.toNat))
        (overflows (a.toInt - b.toInt - borrow.toNat)) (writeReg s0 (low rd) r)))
    let compared (i : Instr) (a b : Word) : Prop :=
      exec i s = .next (forward (withFlags true (a - b) (decide (b.toNat ≤ a.toNat)) (overflows (a.toInt - b.toInt)) s0))
    (∀ f : T2Reg, adds (.tAddReg f) f.rd (readReg s (low f.rs)) (readReg s (low f.rn)) false ∧
      subtracts (.tSubReg f) f.rd (readReg s (low f.rs)) (readReg s (low f.rn)) false) ∧
    (∀ f : T2Imm, adds (.tAddImm3 f) f.rd (readReg s (low f.rs)) (f.imm3.setWidth 32) false ∧
      subtracts (.tSubImm3 f) f.rd (readReg s (low f.rs)) (f.imm3.setWidth 32) false) ∧
    (∀ f : T3, adds (.tAddImm8 f) f.rd (readReg s (low f.rd)) (f.imm8.setWidth 32) false ∧
      subtracts (.tSubImm8 f) f.rd (readReg s (low f.rd)) (f.imm8.setWidth 32) false ∧
      compared (.tCmpImm f) (readReg s (low f.rd)) (f.imm8.setWidth 32)) ∧
    (∀ f : T4, adds (.tAdc f) f.rd (readReg s (low f.rd)) (readReg s (low f.rs)) s.cpsr.c ∧
      subtracts (.tSbc f) f.rd (readReg s (low f.rd)) (readReg s (low f.rs)) (!s.cpsr.c) ∧
      subtracts (.tNeg f) f.rd 0#32 (readReg s (low f.rs)) false ∧
      compared (.tCmp f) (readReg s (low f.rd)) (readReg s (low f.rs)) ∧
      (let a := readReg s (low f.rd)
       let b := readReg s (low f.rs)
       exec (.tCmn f) s = .next (forward (withFlags true (a + b) (decide (4294967296 ≤ a.toNat + b.toNat))
        (overflows (a.toInt + b.toInt)) s0)))) ∧
    (∀ f : T5, (Instr.tCmpHi f).restriction = none → compared (.tCmpHi f) (readReg s f.hd) (readReg s f.hs))

/-- The Thumb logical operations, MOV and TST (spec/48_thumb_data.md R350, R358, R362, R363, R370, R374, R376, R377;
spec/41_shifter_alu_flags.md R221): N and Z are the result's, C and V unchanged; TST writes no register. The whole next state
is given. -/
def Obligations.thumbLogical : Prop :=
  ∀ s : State, CanAdvance s →
    let s0 := charges s.params.cycles.dataImm s
    let goes (i : Instr) (rd : LoReg) (r : Word) : Prop :=
      exec i s = .next (forward (withFlags true r s.cpsr.c s.cpsr.v (writeReg s0 (low rd) r)))
    (∀ f : T3, goes (.tMovImm f) f.rd (f.imm8.setWidth 32)) ∧
    (∀ f : T4,
      let a := readReg s (low f.rd)
      let b := readReg s (low f.rs)
      goes (.tAnd f) f.rd (a &&& b) ∧ goes (.tEor f) f.rd (a ^^^ b) ∧ goes (.tOrr f) f.rd (a ||| b) ∧
      goes (.tBic f) f.rd (a &&& ~~~b) ∧ goes (.tMvn f) f.rd (~~~b) ∧
      exec (.tTst f) s = .next (forward (withFlags true (a &&& b) s.cpsr.c s.cpsr.v s0)))

/-- The Thumb operations on high registers and addresses (spec/48_thumb_data.md R350, R378, R380, R382 to R385): no flag; ADD
and MOV of r15 are pc writes that stay in Thumb state; an address from the pc starts at the word that holds pc + 4. -/
def Obligations.thumbAddresses : Prop :=
  ∀ s : State,
    let s0 := charges s.params.cycles.dataImm s
    (∀ f : T5, (Instr.tAddHi f).restriction = none → (f.hd ≠ 15#4 → CanAdvance s) →
      let goes (i : Instr) (r : Word) : Prop :=
        exec i s = if f.hd = 15#4 then .next (branchTo r s0) else .next (forward (writeReg s0 f.hd r))
      goes (.tAddHi f) (readReg s f.hd + readReg s f.hs) ∧ goes (.tMovHi f) (readReg s f.hs)) ∧
    (CanAdvance s →
      (∀ f : T6,
        exec (.tAddPc f) s = .next (forward (writeReg s0 (low f.rd)
          (((s.pc + 4#32) &&& 0xFFFFFFFC#32) + BitVec.ofNat 32 (4 * f.word8.toNat)))) ∧
        exec (.tAddSp f) s = .next (forward (writeReg s0 (low f.rd)
          (readReg s 13#4 + BitVec.ofNat 32 (4 * f.word8.toNat))))) ∧
      (∀ f : T13,
        exec (.tAddToSp f) s = .next (forward (writeReg s0 13#4 (readReg s 13#4 + BitVec.ofNat 32 (4 * f.sword7.toNat)))) ∧
        exec (.tSubFromSp f) s =
          .next (forward (writeReg s0 13#4 (readReg s 13#4 - BitVec.ofNat 32 (4 * f.sword7.toNat))))))

/-- The Thumb single loads (spec/49_thumb_memory_branch.md R400, R401, R404, R405, R407 to R409, R411, R413, R415, R417): the
address, the value of `loadedValues`, one N and the load's internal cycle, under a quiet interface and with a halfword's
address even. The whole next state is given. -/
def Obligations.thumbLoads : Prop :=
  ∀ s : State, CanAdvance s →
    let goes (i : Instr) (op : LoadOp) (rd : LoReg) (a : Word) : Prop :=
      QuietAt .read op.size a s → (op.size = .half → a.getLsbD 0 = false) →
      exec i s = .next (forward (writeReg (charges s.params.cycles.load (settled (spend 1 0 0 0 s))) (low rd)
        (op.value a (portLoad s.mem op.size a))))
    (∀ f : T6, goes (.tLdrPc f) .word f.rd (((s.pc + 4#32) &&& 0xFFFFFFFC#32) + BitVec.ofNat 32 (4 * f.word8.toNat)) ∧
      goes (.tLdrSp f) .word f.rd (readReg s 13#4 + BitVec.ofNat 32 (4 * f.word8.toNat))) ∧
    (∀ row ∈ loadsT7, ∀ f : T7, goes (row.1 f) row.2 f.rd (readReg s (low f.rb) + readReg s (low f.ro))) ∧
    (∀ row ∈ loadsT9, ∀ f : T9,
      goes (row.1 f) row.2.1 f.rd (readReg s (low f.rb) + BitVec.ofNat 32 (row.2.2 * f.off5.toNat)))

/-- The Thumb single stores (spec/49_thumb_memory_branch.md R400, R402, R403, R406, R410, R412, R414, R416): the low bytes of Rd
go to the address, every other byte of memory is as before; one N cycle; no register and no flag changes. That the row's cycles
are charged after the store is the model's choice (log 7, DESIGN CHOICE). -/
def Obligations.thumbStores : Prop :=
  ∀ s : State, CanAdvance s → s.mem.wf = true →
    let goes (i : Instr) (sz : Size) (rd : LoReg) (a : Word) : Prop :=
      QuietAt .write sz a s → (sz = .half → a.getLsbD 0 = false) →
      ∃ s1, Stored sz a (readReg s (low rd)) s s1 ∧ s1 = { settled (spend 1 0 0 0 s) with mem := s1.mem } ∧
        exec i s = .next (forward (charges s.params.cycles.store s1))
    (∀ f : T6, goes (.tStrSp f) .word f.rd (readReg s 13#4 + BitVec.ofNat 32 (4 * f.word8.toNat))) ∧
    (∀ row ∈ storesT7, ∀ f : T7, goes (row.1 f) row.2 f.rd (readReg s (low f.rb) + readReg s (low f.ro))) ∧
    (∀ row ∈ storesT9, ∀ f : T9,
      goes (row.1 f) row.2.1 f.rd (readReg s (low f.rb) + BitVec.ofNat 32 (row.2.2 * f.off5.toNat)))

/-- PUSH and Thumb STMIA (spec/49_thumb_memory_branch.md R418, R420): the listed registers, r14 last in a PUSH with R = 1, go to
ascending words, below the old sp or from Rb on, and sp or Rb moves past them; a listed Rb is stored as it was. No other byte,
no other register and no flag changes. That the row's cycles are charged after all the words are stored is the model's choice
(log 7, DESIGN CHOICE). -/
def Obligations.thumbStoreMultiple : Prop :=
  ∀ s : State, CanAdvance s → s.mem.wf = true →
    (∀ f : T14, (Instr.tPush f).restriction = none →
      let n := countBelow (pushList f) 16
      let start := readReg s 13#4 - BitVec.ofNat 32 (4 * n)
      QuietWords .write n start s →
      ∃ s1, StoredList (pushList f) start (fun r => readReg s (BitVec.ofNat 4 r)) s s1 ∧
        s1 = { settled (spend 1 (n - 1) 0 0 s) with mem := s1.mem } ∧
        exec (.tPush f) s = .next (forward (writeReg (charges s.params.cycles.storeMultiple s1) 13#4 start))) ∧
    (∀ f : T15, (Instr.tStmia f).restriction = none →
      let n := countBelow f.list 8
      let start := readReg s (low f.rb)
      QuietWords .write n start s →
      ∃ s1, StoredList f.list start (fun r => readReg s (BitVec.ofNat 4 r)) s s1 ∧
        s1 = { settled (spend 1 (n - 1) 0 0 s) with mem := s1.mem } ∧
        exec (.tStmia f) s = .next (forward
          (writeReg (charges s.params.cycles.storeMultiple s1) (low f.rb) (start + BitVec.ofNat 32 (4 * n)))))

/-- POP and Thumb LDMIA (spec/49_thumb_memory_branch.md R419, R421): the listed registers take the ascending words, sp or Rb moves
past them unless Rb is listed, and a POP of the pc is a branch that drops bit 0 and stays in Thumb state. No other register,
no flag and no byte of memory changes. -/
def Obligations.thumbLoadMultiple : Prop :=
  ∀ s : State,
    (∀ f : T14, (Instr.tPop f).restriction = none → (f.r = false → CanAdvance s) →
      let n := countBelow (popList f) 16
      let start := readReg s 13#4
      QuietWords .read n start s →
      ∃ s1 : State, s1 = { charges s.params.cycles.loadMultiple (settled (spend 1 (n - 1) 0 0 s)) with regs := s1.regs } ∧
        (∀ r : RegNum, r ≠ 15#4 → readReg s1 r =
          if f.list.getLsbD r.toNat then portLoad s.mem .word (wordOf (popList f) start r.toNat)
          else if r = 13#4 then start + BitVec.ofNat 32 (4 * n) else readReg s r) ∧
        (∀ p, (∀ r, physOf s.cpsr.m.bank r ≠ some p) → readPhys s1.regs p = readPhys s.regs p) ∧
        exec (.tPop f) s = if f.r then .next (branchTo (portLoad s.mem .word (wordOf (popList f) start 15)) s1)
          else .next (forward s1)) ∧
    (∀ f : T15, (Instr.tLdmia f).restriction = none → CanAdvance s →
      let n := countBelow f.list 8
      let start := readReg s (low f.rb)
      QuietWords .read n start s →
      ∃ s1 : State, s1 = { charges s.params.cycles.loadMultiple (settled (spend 1 (n - 1) 0 0 s)) with regs := s1.regs } ∧
        (∀ r : RegNum, r ≠ 15#4 → readReg s1 r =
          if f.list.getLsbD r.toNat then portLoad s.mem .word (wordOf f.list start r.toNat)
          else if r = low f.rb then start + BitVec.ofNat 32 (4 * n) else readReg s r) ∧
        (∀ p, (∀ r, physOf s.cpsr.m.bank r ≠ some p) → readPhys s1.regs p = readPhys s.regs p) ∧
        exec (.tLdmia f) s = .next (forward s1))

/-- The Thumb branches (spec/49_thumb_memory_branch.md R430, R432, R447, R448): a conditional branch goes to pc + 4 plus twice
the signed offset when its condition passes and only advances when not; B the same always; the first half of BL leaves pc + 4
plus the offset's upper part in r14, the second branches to r14 plus the lower part and leaves the return address with bit 0
set in r14. No flag changes; what the branch itself does is `branchWrite`. -/
def Obligations.thumbBranches : Prop :=
  (∀ row ∈ condBranches, ∀ (f : T16) (s : State),
    (conditionPassed row.2 s.cpsr = true →
      exec (row.1 f) s =
        .next (branchTo (s.pc + 4#32 + BitVec.ofInt 32 (2 * f.off8.toInt)) (charges s.params.cycles.branch s))) ∧
    (conditionPassed row.2 s.cpsr = false → CanAdvance s → exec (row.1 f) s = .next (forward s))) ∧
  (∀ (f : T18) (s : State),
    let s0 := charges s.params.cycles.branch s
    exec (.tB f) s = .next (branchTo (s.pc + 4#32 + BitVec.ofInt 32 (2 * f.off11.toInt)) s0) ∧
    (CanAdvance s → exec (.tBlHi f) s = .next (forward (writeReg (charges s.params.cycles.blFirst s) 14#4
      (s.pc + 4#32 + BitVec.ofInt 32 (4096 * f.off11.toInt))))) ∧
    exec (.tBlLo f) s = .next (branchTo (readReg s 14#4 + BitVec.ofNat 32 (2 * f.off11.toNat))
      (writeReg s0 14#4 ((s.pc + 2#32) ||| 1#32))))

/-- USER mode (spec/60_exceptions.md R480, R481; spec/10_state.md R37): whatever one step does, it stays in USER mode with I and F
as they were, or it took an exception: the mode is the exception's, I is set, T is clear, the pc is a vector and, but for
Reset, the SPSR holds the old status. A step that halts at a boundary changes nothing of this. -/
def Obligations.userModeLeftByExceptionOnly : Prop :=
  ∀ s t : State, s.cpsr.m = .user → step s = .next t →
    (t.cpsr.m = .user ∧ t.cpsr.i = s.cpsr.i ∧ t.cpsr.f = s.cpsr.f) ∨
    (∃ e : Exc, t.cpsr.m = e.mode ∧ t.cpsr.i = true ∧ t.cpsr.t = false ∧ t.cpsr.f = (s.cpsr.f || e == .fiq) ∧
      t.pc = BitVec.ofNat 32 (4 * e.index) ∧ (e ≠ .reset → t.spsr[e.mode.bank] = s.cpsr.word) ∧
      t.cpsr.n = s.cpsr.n ∧ t.cpsr.z = s.cpsr.z ∧ t.cpsr.c = s.cpsr.c ∧ t.cpsr.v = s.cpsr.v)

/-- The flags are written only by the forms that the rules name (spec/10_state.md R36; spec/41_shifter_alu_flags.md R209, R221):
every other instruction, whatever else it does, the entry of an exception included, leaves N, Z, C and V. -/
def Obligations.flagsWrittenOnlyBy : Prop :=
  ∀ (i : Instr) (s t : State), i.writesFlags = false → exec i s = .next t →
    t.cpsr.n = s.cpsr.n ∧ t.cpsr.z = s.cpsr.z ∧ t.cpsr.c = s.cpsr.c ∧ t.cpsr.v = s.cpsr.v

/-- Memory is written only by the stores (spec/20_memory.md R78, R87; spec/47_arm_coprocessor_swi_undefined.md R321): every other
instruction leaves every byte, whatever else it does, when the memory interface writes none of its own accord. For the
coprocessor instructions it rests on what a handler may do, which the model holds in its types (log 1). -/
def Obligations.memoryWrittenOnlyByStores : Prop :=
  ∀ (i : Instr) (s t : State), i.stores = false → Passive s → exec i s = .next t → SameBytes s t

/-- What no step touches, or one thing alone (spec/10_state.md R26, R27, R40, R46, R51, R54; spec/60_exceptions.md R470,
R503): `Inted` and `LastInted`, the SPSR slots 0 and 6, the catch mask, the parameters; the accumulator, while no handler is
bound; and of the registers that are not in the view of the mode the step starts in, only r14 of the mode of an exception the
step enters, and, when the word it executes is an LDM(2), the listed registers of the User bank. That collaborators leave `Inted`
and `LastInted` within a step, and that a handler alone reaches the accumulator, is the model's reading of R46 and R51
(log 1). -/
def Obligations.untouchedByEveryStep : Prop :=
  ∀ s t : State, step s = .next t →
    t.inted = s.inted ∧ t.lastInted = s.lastInted ∧ t.spsr[(0 : Fin 7)] = s.spsr[(0 : Fin 7)] ∧
    t.spsr[(6 : Fin 7)] = s.spsr[(6 : Fin 7)] ∧ t.dbg.catchMask = s.dbg.catchMask ∧ t.params = s.params ∧
    ((∀ b : Fin 16, s.coproc[b] = .unbound) → t.acc = s.acc) ∧
    ∀ p : PhysReg, (∀ r, physOf s.cpsr.m.bank r ≠ some p) → readPhys t.regs p ≠ readPhys s.regs p →
      (∃ e : Exc, p = .lr e.mode.bank ∧ t.cpsr.m = e.mode ∧ t.cpsr.i = true ∧ t.cpsr.t = false ∧
        t.pc = BitVec.ofNat 32 (4 * e.index)) ∨
      (∃ (f : BlockUser) (r : RegNum),
        decodeArm (if s.pipe.valid then s else refill (clearHalt s)).pipe.decoded.word = .instr (.ldm2 f) ∧
        s.cpsr.t = false ∧ f.list.getLsbD r.toNat = true ∧ physOf 0 r = some p)

/-- Retirement and the clock (spec/40_fetch_decode_dispatch.md R163, R185, R186; spec/10_state.md R49, R50;
spec/60_exceptions.md R500): an instruction step retires one instruction and moves the clock by every cycle counted since the
last retirement, whatever happened in it; an exception step retires none, leaves the clock and adds its two refill cycles to
the cost; no step lets the clock go back. -/
def Obligations.retirement : Prop :=
  ∀ s t : State, haltAsked s = none → s.pipe.valid = true → step s = .next t →
    (pendingException s = none →
      t.ctr.numInstrs = s.ctr.numInstrs + 1 ∧ t.ctr.cost = 0 ∧ t.ctr.numF = s.ctr.numF ∧
      t.ctr.now + (s.ctr.numS + s.ctr.numN + s.ctr.numI + s.ctr.numC) =
        s.ctr.now + s.ctr.cost + (t.ctr.numS + t.ctr.numN + t.ctr.numI + t.ctr.numC) ∧
      s.ctr.numS + s.ctr.numN < t.ctr.numS + t.ctr.numN) ∧
    (∀ e, pendingException s = some e → caught e s = false →
      t.ctr = { s.ctr with numN := s.ctr.numN + 1, numS := s.ctr.numS + 1, cost := s.ctr.cost + 2 }) ∧
    s.ctr.now ≤ t.ctr.now

/-- The invariant holds after reset (spec/10_state.md R57, R58; spec/70_reset_and_hazards.md R541). -/
def Obligations.resetInvariant : Prop := State.reset.Inv = true

/-- Every step keeps the invariant (spec/10_state.md R47, R53, R57; spec/20_memory.md R77; spec/70_reset_and_hazards.md R541):
memory stays in its canonical form, the pc aligned for the instruction set in force, the event queue sorted with handles all
different, clock and cost the sum of the cycles counted, and, while the slots are valid, the latest fetch was from pc + isz in
the instruction set in force, and in Thumb state both slots hold halfwords. It quantifies over every collaborator the model can
hold. -/
def Obligations.stepKeepsInvariant : Prop := ∀ s t : State, s.Inv = true → step s = .next t → t.Inv = true
end

