-- ==== Sys2Proof/Laws/Memory.lean ====
section
/-! SUPPORT. Memory: read after write, the canonical form and the little-endian layout (spec/20_memory.md R73, R74). -/

namespace Sys2Proof.Machine

/-- Read after write, one byte. -/
theorem memGet_memSet {lo : Nat} {m : Memory} (hw : wfFrom lo m = true) (a x : Nat) (b : Byte) :
    memGet (memSet m a b) x = if x = a then b else memGet m x := by
  induction m generalizing lo with
  | nil =>
    simp only [memSet]
    split
    · rename_i h; simp [memGet, h]
    · simp only [memGet]
  | cons c m ih =>
    obtain ⟨k, w⟩ := c
    simp only [wfFrom, Bool.and_eq_true, decide_eq_true_eq] at hw
    obtain ⟨⟨⟨_, _⟩, _⟩, hm⟩ := hw
    have hlow : ∀ y, y < k + 1 → memGet m y = unlistedByte := by
      intro y hy
      clear ih
      revert hm
      generalize k + 1 = j at hy
      intro hm
      induction m generalizing j with
      | nil => rfl
      | cons d m ih2 =>
        obtain ⟨k2, w2⟩ := d
        simp only [wfFrom, Bool.and_eq_true, decide_eq_true_eq] at hm
        simp only [memGet]
        rw [if_neg (by omega)]
        exact ih2 (k2 + 1) (by omega) hm.2
    simp only [memSet]
    split
    · rename_i hak
      split
      · rename_i hb
        subst hb
        by_cases hx : x = a
        · simp only [memGet, hx, if_true]
          rw [if_neg (by omega), hlow a (by omega)]
        · simp [hx]
      · simp only [memGet]
    · split
      · rename_i h1 h2
        subst h2
        split
        · rename_i hb
          by_cases hx : x = a
          · rw [if_pos hx, hx, hlow a (by omega), hb]
          · rw [if_neg hx]; simp only [memGet]; rw [if_neg hx]
        · simp only [memGet]
          by_cases hx : x = a
          · simp [hx]
          · simp [hx]
      · rename_i h1 h2
        simp only [memGet]
        by_cases hx : x = k
        · rw [if_pos hx, if_neg (by omega), if_pos hx]
        · rw [if_neg hx, ih hm, if_neg hx]

/-- Writing a byte keeps the form. -/
theorem wfFrom_memSet {lo : Nat} {m : Memory} (hw : wfFrom lo m = true) {a : Nat} (hl : lo ≤ a)
    (ha : a < 4294967296) (b : Byte) : wfFrom lo (memSet m a b) = true := by
  induction m generalizing lo with
  | nil =>
    simp only [memSet]
    split
    · rfl
    · rename_i h; simp [wfFrom, hl, ha, h]
  | cons c m ih =>
    obtain ⟨k, w⟩ := c
    have hw0 := hw
    simp only [wfFrom, Bool.and_eq_true, decide_eq_true_eq] at hw
    obtain ⟨⟨⟨h1, h2⟩, h3⟩, hm⟩ := hw
    simp only [memSet]
    split
    · split
      · exact hw0
      · rename_i hak hb
        simp only [wfFrom, Bool.and_eq_true, decide_eq_true_eq]
        exact ⟨⟨⟨hl, ha⟩, hb⟩, ⟨⟨⟨by omega, h2⟩, h3⟩, hm⟩⟩
    · split
      · rename_i hn he
        subst he
        split
        · exact wfFrom_mono (Nat.le_succ_of_le hl) hm
        · rename_i hb
          simp only [wfFrom, Bool.and_eq_true, decide_eq_true_eq]
          exact ⟨⟨⟨hl, ha⟩, hb⟩, hm⟩
      · simp only [wfFrom, Bool.and_eq_true, decide_eq_true_eq]
        exact ⟨⟨⟨h1, h2⟩, h3⟩, ih hm (by omega)⟩
where
  wfFrom_mono {lo hi : Nat} {m : Memory} (h : lo ≤ hi) (hw : wfFrom hi m = true) : wfFrom lo m = true := by
    cases m with
    | nil => rfl
    | cons c m =>
      obtain ⟨k, w⟩ := c
      simp only [wfFrom, Bool.and_eq_true, decide_eq_true_eq] at hw ⊢
      exact ⟨⟨⟨by omega, hw.1.1.2⟩, hw.1.2⟩, hw.2⟩

/-- Writing a byte at a 32-bit address keeps the canonical form. -/
theorem wf_memSet {m : Memory} (hw : m.wf = true) (a : Word) (b : Byte) : Memory.wf (memSet m a.toNat b) = true :=
  wfFrom_memSet hw (Nat.zero_le _) a.isLt b

/-- A store at the port keeps the canonical form. -/
theorem wf_portStore {m : Memory} (hw : m.wf = true) (sz : Size) (a v : Word) : (portStore m sz a v).wf = true := by
  cases sz <;> simp only [portStore] <;> repeat (first | exact hw | apply wf_memSet)

/-- Two canonical memories that read alike everywhere are equal. -/
theorem wfFrom_ext {lo : Nat} {m n : Memory} (hm : wfFrom lo m = true) (hn : wfFrom lo n = true)
    (h : ∀ x, memGet m x = memGet n x) : m = n := by
  have below : ∀ {lo : Nat} {m : Memory}, wfFrom lo m = true → ∀ y, y < lo → memGet m y = unlistedByte := by
    intro lo m
    induction m generalizing lo with
    | nil => intros; rfl
    | cons c m ih =>
      obtain ⟨k, w⟩ := c
      intro hw y hy
      simp only [wfFrom, Bool.and_eq_true, decide_eq_true_eq] at hw
      simp only [memGet]
      rw [if_neg (by omega)]
      exact ih hw.2 y (by omega)
  induction m generalizing lo n with
  | nil =>
    cases n with
    | nil => rfl
    | cons c n =>
      obtain ⟨k, w⟩ := c
      simp only [wfFrom, Bool.and_eq_true, decide_eq_true_eq] at hn
      have := h k
      simp only [memGet, if_true] at this
      exact absurd this.symm hn.1.2
  | cons c m ih =>
    obtain ⟨k, w⟩ := c
    cases n with
    | nil =>
      simp only [wfFrom, Bool.and_eq_true, decide_eq_true_eq] at hm
      have := h k
      simp only [memGet, if_true] at this
      exact absurd this hm.1.2
    | cons d n =>
      obtain ⟨k2, w2⟩ := d
      simp only [wfFrom, Bool.and_eq_true, decide_eq_true_eq] at hm hn
      have hk : k = k2 := by
        rcases Nat.lt_trichotomy k k2 with hlt | heq | hgt
        · have := h k
          simp only [memGet, if_true] at this
          rw [if_neg (by omega), below hn.2 k (by omega)] at this
          exact absurd this hm.1.2
        · exact heq
        · have := h k2
          simp only [memGet, if_true] at this
          rw [if_neg (by omega), below hm.2 k2 (by omega)] at this
          exact absurd this.symm hn.1.2
      subst hk
      have hw : w = w2 := by simpa [memGet] using h k
      subst hw
      congr 1
      refine ih hm.2 hn.2 fun x => ?_
      by_cases hx : x = k
      · rw [hx, below hm.2 k (by omega), below hn.2 k (by omega)]
      · simpa [memGet, hx] using h x

/-- The lowest byte of a word access is at a multiple of 4. -/
theorem accessBase_word_toNat (a : Word) : (accessBase .word a).toNat = 4 * (a.toNat / 4) := by
  have h : a &&& 0xFFFFFFFC#32 = (a >>> 2) <<< 2 := by
    ext i hi
    simp only [BitVec.getElem_and, BitVec.getElem_shiftLeft]
    by_cases h2 : i < 2
    · have : (0xFFFFFFFC#32).getLsbD i = false := by rcases i with _ | _ | i <;> first | rfl | omega
      simp [h2, ← BitVec.getLsbD_eq_getElem, this]
    · have : (0xFFFFFFFC#32).getLsbD i = true := by
        have : ∀ j : Fin 32, 2 ≤ j.val → (0xFFFFFFFC#32).getLsbD j.val = true := by decide
        exact this ⟨i, hi⟩ (show 2 ≤ i by omega)
      have e : 2 + (i - 2) = i := by omega
      simp [h2, ← BitVec.getLsbD_eq_getElem, this, e]
  have := a.isLt
  simp only [accessBase, h, BitVec.toNat_shiftLeft, BitVec.toNat_ushiftRight, Nat.shiftRight_eq_div_pow,
    Nat.shiftLeft_eq]
  omega

/-- The bytes of a word access do not wrap. -/
theorem accessBase_word_add (a : Word) {k : Nat} (hk : k < 4) :
    (accessBase .word a + BitVec.ofNat 32 k).toNat = (accessBase .word a).toNat + k := by
  have h := accessBase_word_toNat a
  have := a.isLt
  rw [BitVec.toNat_add, BitVec.toNat_ofNat]
  omega

/-- Bytes of a store at the port: the stored bytes are the value's, little-endian, every other byte is as before. -/
theorem memGet_portStore {m : Memory} (hw : m.wf = true) (sz : Size) (a v : Word)
    (ha : sz = .half → a.toNat % 2 = 0) (x : Nat) :
    memGet (portStore m sz a v) x =
      if (accessBase sz a).toNat ≤ x ∧ x < (accessBase sz a).toNat + sz.bytes
      then v.extractLsb' (8 * (x - (accessBase sz a).toNat)) 8 else memGet m x := by
  cases sz with
  | byte =>
    simp only [portStore, Size.bytes]
    rw [memGet_memSet hw]
    by_cases h : x = (accessBase .byte a).toNat
    · subst h; simp
    · have h0 : ¬ ((accessBase .byte a).toNat ≤ x ∧ x < (accessBase .byte a).toNat + 1) := by omega
      simp only [h, h0, if_false]
  | half =>
    have h1 : (accessBase .half a + 1#32).toNat = (accessBase .half a).toNat + 1 := by
      have := a.isLt
      have := ha rfl
      rw [BitVec.toNat_add]
      simp only [accessBase, BitVec.toNat_ofNat]
      omega
    simp only [portStore, Size.bytes]
    rw [memGet_memSet (wf_memSet hw _ _), memGet_memSet hw, h1]
    generalize (accessBase .half a).toNat = b
    by_cases e1 : x = b + 1
    · subst e1; simp
    · by_cases e0 : x = b
      · subst e0; simp
      · have h0 : ¬ (b ≤ x ∧ x < b + 2) := by omega
        simp only [e1, e0, h0, if_false]
  | word =>
    have h1 := accessBase_word_add a (k := 1) (by omega)
    have h2 := accessBase_word_add a (k := 2) (by omega)
    have h3 := accessBase_word_add a (k := 3) (by omega)
    simp only [portStore, Size.bytes]
    rw [memGet_memSet (wf_memSet (wf_memSet (wf_memSet hw _ _) _ _) _ _),
      memGet_memSet (wf_memSet (wf_memSet hw _ _) _ _), memGet_memSet (wf_memSet hw _ _), memGet_memSet hw, h1, h2, h3]
    generalize (accessBase .word a).toNat = b
    by_cases e3 : x = b + 3
    · subst e3; simp
    · by_cases e2 : x = b + 2
      · subst e2; simp
      · by_cases e1 : x = b + 1
        · subst e1; simp
        · by_cases e0 : x = b
          · subst e0; simp
          · have h0 : ¬ (b ≤ x ∧ x < b + 4) := by omega
            simp only [e3, e2, e1, e0, h0, if_false]

/-- A word access to an aligned address touches that address. -/
theorem accessBase_word_aligned {a : Word} (h : a.toNat % 4 = 0) : accessBase .word a = a := by
  apply BitVec.eq_of_toNat_eq
  rw [accessBase_word_toNat]; omega

/-- The reset memory is canonical. -/
theorem reset_mem_wf : State.reset.mem.wf = true := rfl

end Sys2Proof.Machine
end

