-- ==== Sys2Proof/Laws/State.lean ====
section
/-! SUPPORT. One lemma per field per update: what each named update leaves of the state. -/

namespace Sys2Proof.Machine

/-- A field that each step of a fold keeps, the fold keeps. -/
theorem foldl_keeps {α β : Type} (g : State → β) (f : State → α → State) (h : ∀ s a, g (f s a) = g s) (l : List α) (s : State) :
    g (l.foldl f s) = g s := by
  induction l generalizing s with
  | nil => rfl
  | cons a l ih => exact (ih _).trans (h s a)

/-! ### writeBank -/

@[simp] theorem writeBank_pc (s : State) (b : Fin 7) (n : RegNum) (v : Word) : (writeBank s b n v).pc = s.pc := by unfold writeBank; cases physOf b n <;> rfl
@[simp] theorem writeBank_cpsr (s : State) (b : Fin 7) (n : RegNum) (v : Word) : (writeBank s b n v).cpsr = s.cpsr := by unfold writeBank; cases physOf b n <;> rfl
@[simp] theorem writeBank_spsr (s : State) (b : Fin 7) (n : RegNum) (v : Word) : (writeBank s b n v).spsr = s.spsr := by unfold writeBank; cases physOf b n <;> rfl
@[simp] theorem writeBank_fault (s : State) (b : Fin 7) (n : RegNum) (v : Word) : (writeBank s b n v).fault = s.fault := by unfold writeBank; cases physOf b n <;> rfl
@[simp] theorem writeBank_inted (s : State) (b : Fin 7) (n : RegNum) (v : Word) : (writeBank s b n v).inted = s.inted := by unfold writeBank; cases physOf b n <;> rfl
@[simp] theorem writeBank_lastInted (s : State) (b : Fin 7) (n : RegNum) (v : Word) : (writeBank s b n v).lastInted = s.lastInted := by unfold writeBank; cases physOf b n <;> rfl
@[simp] theorem writeBank_pipe (s : State) (b : Fin 7) (n : RegNum) (v : Word) : (writeBank s b n v).pipe = s.pipe := by unfold writeBank; cases physOf b n <;> rfl
@[simp] theorem writeBank_ctr (s : State) (b : Fin 7) (n : RegNum) (v : Word) : (writeBank s b n v).ctr = s.ctr := by unfold writeBank; cases physOf b n <;> rfl
@[simp] theorem writeBank_acc (s : State) (b : Fin 7) (n : RegNum) (v : Word) : (writeBank s b n v).acc = s.acc := by unfold writeBank; cases physOf b n <;> rfl
@[simp] theorem writeBank_coproc (s : State) (b : Fin 7) (n : RegNum) (v : Word) : (writeBank s b n v).coproc = s.coproc := by unfold writeBank; cases physOf b n <;> rfl
@[simp] theorem writeBank_sched (s : State) (b : Fin 7) (n : RegNum) (v : Word) : (writeBank s b n v).sched = s.sched := by unfold writeBank; cases physOf b n <;> rfl
@[simp] theorem writeBank_lines (s : State) (b : Fin 7) (n : RegNum) (v : Word) : (writeBank s b n v).lines = s.lines := by unfold writeBank; cases physOf b n <;> rfl
@[simp] theorem writeBank_dbg (s : State) (b : Fin 7) (n : RegNum) (v : Word) : (writeBank s b n v).dbg = s.dbg := by unfold writeBank; cases physOf b n <;> rfl
@[simp] theorem writeBank_mem (s : State) (b : Fin 7) (n : RegNum) (v : Word) : (writeBank s b n v).mem = s.mem := by unfold writeBank; cases physOf b n <;> rfl
@[simp] theorem writeBank_collab (s : State) (b : Fin 7) (n : RegNum) (v : Word) : (writeBank s b n v).collab = s.collab := by unfold writeBank; cases physOf b n <;> rfl
@[simp] theorem writeBank_params (s : State) (b : Fin 7) (n : RegNum) (v : Word) : (writeBank s b n v).params = s.params := by unfold writeBank; cases physOf b n <;> rfl
@[simp] theorem writeBank_freeCount (s : State) (b : Fin 7) (n : RegNum) (v : Word) : (writeBank s b n v).freeCount = s.freeCount := by unfold writeBank; cases physOf b n <;> rfl

/-! ### writeReg -/

@[simp] theorem writeReg_pc (s : State) (n : RegNum) (v : Word) : (writeReg s n v).pc = s.pc := writeBank_pc ..
@[simp] theorem writeReg_cpsr (s : State) (n : RegNum) (v : Word) : (writeReg s n v).cpsr = s.cpsr := writeBank_cpsr ..
@[simp] theorem writeReg_spsr (s : State) (n : RegNum) (v : Word) : (writeReg s n v).spsr = s.spsr := writeBank_spsr ..
@[simp] theorem writeReg_fault (s : State) (n : RegNum) (v : Word) : (writeReg s n v).fault = s.fault := writeBank_fault ..
@[simp] theorem writeReg_inted (s : State) (n : RegNum) (v : Word) : (writeReg s n v).inted = s.inted := writeBank_inted ..
@[simp] theorem writeReg_lastInted (s : State) (n : RegNum) (v : Word) : (writeReg s n v).lastInted = s.lastInted := writeBank_lastInted ..
@[simp] theorem writeReg_pipe (s : State) (n : RegNum) (v : Word) : (writeReg s n v).pipe = s.pipe := writeBank_pipe ..
@[simp] theorem writeReg_ctr (s : State) (n : RegNum) (v : Word) : (writeReg s n v).ctr = s.ctr := writeBank_ctr ..
@[simp] theorem writeReg_acc (s : State) (n : RegNum) (v : Word) : (writeReg s n v).acc = s.acc := writeBank_acc ..
@[simp] theorem writeReg_coproc (s : State) (n : RegNum) (v : Word) : (writeReg s n v).coproc = s.coproc := writeBank_coproc ..
@[simp] theorem writeReg_sched (s : State) (n : RegNum) (v : Word) : (writeReg s n v).sched = s.sched := writeBank_sched ..
@[simp] theorem writeReg_lines (s : State) (n : RegNum) (v : Word) : (writeReg s n v).lines = s.lines := writeBank_lines ..
@[simp] theorem writeReg_dbg (s : State) (n : RegNum) (v : Word) : (writeReg s n v).dbg = s.dbg := writeBank_dbg ..
@[simp] theorem writeReg_mem (s : State) (n : RegNum) (v : Word) : (writeReg s n v).mem = s.mem := writeBank_mem ..
@[simp] theorem writeReg_collab (s : State) (n : RegNum) (v : Word) : (writeReg s n v).collab = s.collab := writeBank_collab ..
@[simp] theorem writeReg_params (s : State) (n : RegNum) (v : Word) : (writeReg s n v).params = s.params := writeBank_params ..
@[simp] theorem writeReg_freeCount (s : State) (n : RegNum) (v : Word) : (writeReg s n v).freeCount = s.freeCount := writeBank_freeCount ..

/-! ### writeUser -/

@[simp] theorem writeUser_pc (s : State) (n : RegNum) (v : Word) : (writeUser s n v).pc = s.pc := writeBank_pc ..
@[simp] theorem writeUser_cpsr (s : State) (n : RegNum) (v : Word) : (writeUser s n v).cpsr = s.cpsr := writeBank_cpsr ..
@[simp] theorem writeUser_spsr (s : State) (n : RegNum) (v : Word) : (writeUser s n v).spsr = s.spsr := writeBank_spsr ..
@[simp] theorem writeUser_fault (s : State) (n : RegNum) (v : Word) : (writeUser s n v).fault = s.fault := writeBank_fault ..
@[simp] theorem writeUser_inted (s : State) (n : RegNum) (v : Word) : (writeUser s n v).inted = s.inted := writeBank_inted ..
@[simp] theorem writeUser_lastInted (s : State) (n : RegNum) (v : Word) : (writeUser s n v).lastInted = s.lastInted := writeBank_lastInted ..
@[simp] theorem writeUser_pipe (s : State) (n : RegNum) (v : Word) : (writeUser s n v).pipe = s.pipe := writeBank_pipe ..
@[simp] theorem writeUser_ctr (s : State) (n : RegNum) (v : Word) : (writeUser s n v).ctr = s.ctr := writeBank_ctr ..
@[simp] theorem writeUser_acc (s : State) (n : RegNum) (v : Word) : (writeUser s n v).acc = s.acc := writeBank_acc ..
@[simp] theorem writeUser_coproc (s : State) (n : RegNum) (v : Word) : (writeUser s n v).coproc = s.coproc := writeBank_coproc ..
@[simp] theorem writeUser_sched (s : State) (n : RegNum) (v : Word) : (writeUser s n v).sched = s.sched := writeBank_sched ..
@[simp] theorem writeUser_lines (s : State) (n : RegNum) (v : Word) : (writeUser s n v).lines = s.lines := writeBank_lines ..
@[simp] theorem writeUser_dbg (s : State) (n : RegNum) (v : Word) : (writeUser s n v).dbg = s.dbg := writeBank_dbg ..
@[simp] theorem writeUser_mem (s : State) (n : RegNum) (v : Word) : (writeUser s n v).mem = s.mem := writeBank_mem ..
@[simp] theorem writeUser_collab (s : State) (n : RegNum) (v : Word) : (writeUser s n v).collab = s.collab := writeBank_collab ..
@[simp] theorem writeUser_params (s : State) (n : RegNum) (v : Word) : (writeUser s n v).params = s.params := writeBank_params ..
@[simp] theorem writeUser_freeCount (s : State) (n : RegNum) (v : Word) : (writeUser s n v).freeCount = s.freeCount := writeBank_freeCount ..

/-! ### writeBack -/

@[simp] theorem writeBack_pc (wb : Option (RegNum × Word)) (s : State) : (writeBack wb s).pc = s.pc := by cases wb <;> simp [writeBack]
@[simp] theorem writeBack_cpsr (wb : Option (RegNum × Word)) (s : State) : (writeBack wb s).cpsr = s.cpsr := by cases wb <;> simp [writeBack]
@[simp] theorem writeBack_spsr (wb : Option (RegNum × Word)) (s : State) : (writeBack wb s).spsr = s.spsr := by cases wb <;> simp [writeBack]
@[simp] theorem writeBack_fault (wb : Option (RegNum × Word)) (s : State) : (writeBack wb s).fault = s.fault := by cases wb <;> simp [writeBack]
@[simp] theorem writeBack_inted (wb : Option (RegNum × Word)) (s : State) : (writeBack wb s).inted = s.inted := by cases wb <;> simp [writeBack]
@[simp] theorem writeBack_lastInted (wb : Option (RegNum × Word)) (s : State) : (writeBack wb s).lastInted = s.lastInted := by cases wb <;> simp [writeBack]
@[simp] theorem writeBack_pipe (wb : Option (RegNum × Word)) (s : State) : (writeBack wb s).pipe = s.pipe := by cases wb <;> simp [writeBack]
@[simp] theorem writeBack_ctr (wb : Option (RegNum × Word)) (s : State) : (writeBack wb s).ctr = s.ctr := by cases wb <;> simp [writeBack]
@[simp] theorem writeBack_acc (wb : Option (RegNum × Word)) (s : State) : (writeBack wb s).acc = s.acc := by cases wb <;> simp [writeBack]
@[simp] theorem writeBack_coproc (wb : Option (RegNum × Word)) (s : State) : (writeBack wb s).coproc = s.coproc := by cases wb <;> simp [writeBack]
@[simp] theorem writeBack_sched (wb : Option (RegNum × Word)) (s : State) : (writeBack wb s).sched = s.sched := by cases wb <;> simp [writeBack]
@[simp] theorem writeBack_lines (wb : Option (RegNum × Word)) (s : State) : (writeBack wb s).lines = s.lines := by cases wb <;> simp [writeBack]
@[simp] theorem writeBack_dbg (wb : Option (RegNum × Word)) (s : State) : (writeBack wb s).dbg = s.dbg := by cases wb <;> simp [writeBack]
@[simp] theorem writeBack_mem (wb : Option (RegNum × Word)) (s : State) : (writeBack wb s).mem = s.mem := by cases wb <;> simp [writeBack]
@[simp] theorem writeBack_collab (wb : Option (RegNum × Word)) (s : State) : (writeBack wb s).collab = s.collab := by cases wb <;> simp [writeBack]
@[simp] theorem writeBack_params (wb : Option (RegNum × Word)) (s : State) : (writeBack wb s).params = s.params := by cases wb <;> simp [writeBack]
@[simp] theorem writeBack_freeCount (wb : Option (RegNum × Word)) (s : State) : (writeBack wb s).freeCount = s.freeCount := by cases wb <;> simp [writeBack]

/-! ### countAccess -/

@[simp] theorem countAccess_regs (c : Cls) (k : Nat) (s : State) : (countAccess c k s).regs = s.regs := by cases c <;> rfl
@[simp] theorem countAccess_pc (c : Cls) (k : Nat) (s : State) : (countAccess c k s).pc = s.pc := by cases c <;> rfl
@[simp] theorem countAccess_cpsr (c : Cls) (k : Nat) (s : State) : (countAccess c k s).cpsr = s.cpsr := by cases c <;> rfl
@[simp] theorem countAccess_spsr (c : Cls) (k : Nat) (s : State) : (countAccess c k s).spsr = s.spsr := by cases c <;> rfl
@[simp] theorem countAccess_fault (c : Cls) (k : Nat) (s : State) : (countAccess c k s).fault = s.fault := by cases c <;> rfl
@[simp] theorem countAccess_inted (c : Cls) (k : Nat) (s : State) : (countAccess c k s).inted = s.inted := by cases c <;> rfl
@[simp] theorem countAccess_lastInted (c : Cls) (k : Nat) (s : State) : (countAccess c k s).lastInted = s.lastInted := by cases c <;> rfl
@[simp] theorem countAccess_pipe (c : Cls) (k : Nat) (s : State) : (countAccess c k s).pipe = s.pipe := by cases c <;> rfl
@[simp] theorem countAccess_acc (c : Cls) (k : Nat) (s : State) : (countAccess c k s).acc = s.acc := by cases c <;> rfl
@[simp] theorem countAccess_coproc (c : Cls) (k : Nat) (s : State) : (countAccess c k s).coproc = s.coproc := by cases c <;> rfl
@[simp] theorem countAccess_sched (c : Cls) (k : Nat) (s : State) : (countAccess c k s).sched = s.sched := by cases c <;> rfl
@[simp] theorem countAccess_lines (c : Cls) (k : Nat) (s : State) : (countAccess c k s).lines = s.lines := by cases c <;> rfl
@[simp] theorem countAccess_dbg (c : Cls) (k : Nat) (s : State) : (countAccess c k s).dbg = s.dbg := by cases c <;> rfl
@[simp] theorem countAccess_mem (c : Cls) (k : Nat) (s : State) : (countAccess c k s).mem = s.mem := by cases c <;> rfl
@[simp] theorem countAccess_collab (c : Cls) (k : Nat) (s : State) : (countAccess c k s).collab = s.collab := by cases c <;> rfl
@[simp] theorem countAccess_params (c : Cls) (k : Nat) (s : State) : (countAccess c k s).params = s.params := by cases c <;> rfl
@[simp] theorem countAccess_freeCount (c : Cls) (k : Nat) (s : State) : (countAccess c k s).freeCount = s.freeCount := by cases c <;> rfl

/-! ### poke -/

@[simp] theorem poke_regs (a : Word) (b : Byte) (s : State) : (poke a b s).regs = s.regs := rfl
@[simp] theorem poke_pc (a : Word) (b : Byte) (s : State) : (poke a b s).pc = s.pc := rfl
@[simp] theorem poke_cpsr (a : Word) (b : Byte) (s : State) : (poke a b s).cpsr = s.cpsr := rfl
@[simp] theorem poke_spsr (a : Word) (b : Byte) (s : State) : (poke a b s).spsr = s.spsr := rfl
@[simp] theorem poke_fault (a : Word) (b : Byte) (s : State) : (poke a b s).fault = s.fault := rfl
@[simp] theorem poke_inted (a : Word) (b : Byte) (s : State) : (poke a b s).inted = s.inted := rfl
@[simp] theorem poke_lastInted (a : Word) (b : Byte) (s : State) : (poke a b s).lastInted = s.lastInted := rfl
@[simp] theorem poke_pipe (a : Word) (b : Byte) (s : State) : (poke a b s).pipe = s.pipe := rfl
@[simp] theorem poke_ctr (a : Word) (b : Byte) (s : State) : (poke a b s).ctr = s.ctr := rfl
@[simp] theorem poke_acc (a : Word) (b : Byte) (s : State) : (poke a b s).acc = s.acc := rfl
@[simp] theorem poke_coproc (a : Word) (b : Byte) (s : State) : (poke a b s).coproc = s.coproc := rfl
@[simp] theorem poke_sched (a : Word) (b : Byte) (s : State) : (poke a b s).sched = s.sched := rfl
@[simp] theorem poke_lines (a : Word) (b : Byte) (s : State) : (poke a b s).lines = s.lines := rfl
@[simp] theorem poke_dbg (a : Word) (b : Byte) (s : State) : (poke a b s).dbg = s.dbg := rfl
@[simp] theorem poke_collab (a : Word) (b : Byte) (s : State) : (poke a b s).collab = s.collab := rfl
@[simp] theorem poke_params (a : Word) (b : Byte) (s : State) : (poke a b s).params = s.params := rfl
@[simp] theorem poke_freeCount (a : Word) (b : Byte) (s : State) : (poke a b s).freeCount = s.freeCount := rfl

/-! ### cancel -/

@[simp] theorem cancel_regs (h : Nat) (s : State) : (cancel h s).regs = s.regs := rfl
@[simp] theorem cancel_pc (h : Nat) (s : State) : (cancel h s).pc = s.pc := rfl
@[simp] theorem cancel_cpsr (h : Nat) (s : State) : (cancel h s).cpsr = s.cpsr := rfl
@[simp] theorem cancel_spsr (h : Nat) (s : State) : (cancel h s).spsr = s.spsr := rfl
@[simp] theorem cancel_fault (h : Nat) (s : State) : (cancel h s).fault = s.fault := rfl
@[simp] theorem cancel_inted (h : Nat) (s : State) : (cancel h s).inted = s.inted := rfl
@[simp] theorem cancel_lastInted (h : Nat) (s : State) : (cancel h s).lastInted = s.lastInted := rfl
@[simp] theorem cancel_pipe (h : Nat) (s : State) : (cancel h s).pipe = s.pipe := rfl
@[simp] theorem cancel_ctr (h : Nat) (s : State) : (cancel h s).ctr = s.ctr := rfl
@[simp] theorem cancel_acc (h : Nat) (s : State) : (cancel h s).acc = s.acc := rfl
@[simp] theorem cancel_coproc (h : Nat) (s : State) : (cancel h s).coproc = s.coproc := rfl
@[simp] theorem cancel_lines (h : Nat) (s : State) : (cancel h s).lines = s.lines := rfl
@[simp] theorem cancel_dbg (h : Nat) (s : State) : (cancel h s).dbg = s.dbg := rfl
@[simp] theorem cancel_mem (h : Nat) (s : State) : (cancel h s).mem = s.mem := rfl
@[simp] theorem cancel_collab (h : Nat) (s : State) : (cancel h s).collab = s.collab := rfl
@[simp] theorem cancel_params (h : Nat) (s : State) : (cancel h s).params = s.params := rfl
@[simp] theorem cancel_freeCount (h : Nat) (s : State) : (cancel h s).freeCount = s.freeCount := rfl

/-! ### schedule -/

@[simp] theorem schedule_regs (d c : Nat) (s : State) : ((schedule d c s).2).regs = s.regs := rfl
@[simp] theorem schedule_pc (d c : Nat) (s : State) : ((schedule d c s).2).pc = s.pc := rfl
@[simp] theorem schedule_cpsr (d c : Nat) (s : State) : ((schedule d c s).2).cpsr = s.cpsr := rfl
@[simp] theorem schedule_spsr (d c : Nat) (s : State) : ((schedule d c s).2).spsr = s.spsr := rfl
@[simp] theorem schedule_fault (d c : Nat) (s : State) : ((schedule d c s).2).fault = s.fault := rfl
@[simp] theorem schedule_inted (d c : Nat) (s : State) : ((schedule d c s).2).inted = s.inted := rfl
@[simp] theorem schedule_lastInted (d c : Nat) (s : State) : ((schedule d c s).2).lastInted = s.lastInted := rfl
@[simp] theorem schedule_pipe (d c : Nat) (s : State) : ((schedule d c s).2).pipe = s.pipe := rfl
@[simp] theorem schedule_ctr (d c : Nat) (s : State) : ((schedule d c s).2).ctr = s.ctr := rfl
@[simp] theorem schedule_acc (d c : Nat) (s : State) : ((schedule d c s).2).acc = s.acc := rfl
@[simp] theorem schedule_coproc (d c : Nat) (s : State) : ((schedule d c s).2).coproc = s.coproc := rfl
@[simp] theorem schedule_lines (d c : Nat) (s : State) : ((schedule d c s).2).lines = s.lines := rfl
@[simp] theorem schedule_dbg (d c : Nat) (s : State) : ((schedule d c s).2).dbg = s.dbg := rfl
@[simp] theorem schedule_mem (d c : Nat) (s : State) : ((schedule d c s).2).mem = s.mem := rfl
@[simp] theorem schedule_collab (d c : Nat) (s : State) : ((schedule d c s).2).collab = s.collab := rfl
@[simp] theorem schedule_params (d c : Nat) (s : State) : ((schedule d c s).2).params = s.params := rfl
@[simp] theorem schedule_freeCount (d c : Nat) (s : State) : ((schedule d c s).2).freeCount = s.freeCount := rfl

/-! ### perform -/

@[simp] theorem perform_regs (s : State) (a : Action) : (perform s a).regs = s.regs := by cases a <;> rfl
@[simp] theorem perform_pc (s : State) (a : Action) : (perform s a).pc = s.pc := by cases a <;> rfl
@[simp] theorem perform_cpsr (s : State) (a : Action) : (perform s a).cpsr = s.cpsr := by cases a <;> rfl
@[simp] theorem perform_spsr (s : State) (a : Action) : (perform s a).spsr = s.spsr := by cases a <;> rfl
@[simp] theorem perform_fault (s : State) (a : Action) : (perform s a).fault = s.fault := by cases a <;> rfl
@[simp] theorem perform_inted (s : State) (a : Action) : (perform s a).inted = s.inted := by cases a <;> rfl
@[simp] theorem perform_lastInted (s : State) (a : Action) : (perform s a).lastInted = s.lastInted := by cases a <;> rfl
@[simp] theorem perform_pipe (s : State) (a : Action) : (perform s a).pipe = s.pipe := by cases a <;> rfl
@[simp] theorem perform_ctr (s : State) (a : Action) : (perform s a).ctr = s.ctr := by cases a <;> rfl
@[simp] theorem perform_acc (s : State) (a : Action) : (perform s a).acc = s.acc := by cases a <;> rfl
@[simp] theorem perform_coproc (s : State) (a : Action) : (perform s a).coproc = s.coproc := by cases a <;> rfl
@[simp] theorem perform_mem (s : State) (a : Action) : (perform s a).mem = s.mem := by cases a <;> rfl
@[simp] theorem perform_collab (s : State) (a : Action) : (perform s a).collab = s.collab := by cases a <;> rfl
@[simp] theorem perform_params (s : State) (a : Action) : (perform s a).params = s.params := by cases a <;> rfl
@[simp] theorem perform_freeCount (s : State) (a : Action) : (perform s a).freeCount = s.freeCount := by cases a <;> rfl

/-! ### performIdle -/

@[simp] theorem performIdle_regs (s : State) (a : IdleAction) : (performIdle s a).regs = s.regs := by cases a <;> simp [performIdle]
@[simp] theorem performIdle_pc (s : State) (a : IdleAction) : (performIdle s a).pc = s.pc := by cases a <;> simp [performIdle]
@[simp] theorem performIdle_cpsr (s : State) (a : IdleAction) : (performIdle s a).cpsr = s.cpsr := by cases a <;> simp [performIdle]
@[simp] theorem performIdle_spsr (s : State) (a : IdleAction) : (performIdle s a).spsr = s.spsr := by cases a <;> simp [performIdle]
@[simp] theorem performIdle_fault (s : State) (a : IdleAction) : (performIdle s a).fault = s.fault := by cases a <;> simp [performIdle]
@[simp] theorem performIdle_inted (s : State) (a : IdleAction) : (performIdle s a).inted = s.inted := by cases a <;> simp [performIdle]
@[simp] theorem performIdle_lastInted (s : State) (a : IdleAction) : (performIdle s a).lastInted = s.lastInted := by cases a <;> simp [performIdle]
@[simp] theorem performIdle_pipe (s : State) (a : IdleAction) : (performIdle s a).pipe = s.pipe := by cases a <;> simp [performIdle]
@[simp] theorem performIdle_ctr (s : State) (a : IdleAction) : (performIdle s a).ctr = s.ctr := by cases a <;> simp [performIdle]
@[simp] theorem performIdle_acc (s : State) (a : IdleAction) : (performIdle s a).acc = s.acc := by cases a <;> simp [performIdle]
@[simp] theorem performIdle_coproc (s : State) (a : IdleAction) : (performIdle s a).coproc = s.coproc := by cases a <;> simp [performIdle]
@[simp] theorem performIdle_collab (s : State) (a : IdleAction) : (performIdle s a).collab = s.collab := by cases a <;> simp [performIdle]
@[simp] theorem performIdle_params (s : State) (a : IdleAction) : (performIdle s a).params = s.params := by cases a <;> simp [performIdle]
@[simp] theorem performIdle_freeCount (s : State) (a : IdleAction) : (performIdle s a).freeCount = s.freeCount := by cases a <;> simp [performIdle]

/-! ### internalCall -/

@[simp] theorem internalCall_regs (s : State) : (internalCall s).regs = s.regs := foldl_keeps State.regs performIdle performIdle_regs ..
@[simp] theorem internalCall_pc (s : State) : (internalCall s).pc = s.pc := foldl_keeps State.pc performIdle performIdle_pc ..
@[simp] theorem internalCall_cpsr (s : State) : (internalCall s).cpsr = s.cpsr := foldl_keeps State.cpsr performIdle performIdle_cpsr ..
@[simp] theorem internalCall_spsr (s : State) : (internalCall s).spsr = s.spsr := foldl_keeps State.spsr performIdle performIdle_spsr ..
@[simp] theorem internalCall_fault (s : State) : (internalCall s).fault = s.fault := foldl_keeps State.fault performIdle performIdle_fault ..
@[simp] theorem internalCall_inted (s : State) : (internalCall s).inted = s.inted := foldl_keeps State.inted performIdle performIdle_inted ..
@[simp] theorem internalCall_lastInted (s : State) : (internalCall s).lastInted = s.lastInted := foldl_keeps State.lastInted performIdle performIdle_lastInted ..
@[simp] theorem internalCall_pipe (s : State) : (internalCall s).pipe = s.pipe := foldl_keeps State.pipe performIdle performIdle_pipe ..
@[simp] theorem internalCall_ctr (s : State) : (internalCall s).ctr = s.ctr := foldl_keeps State.ctr performIdle performIdle_ctr ..
@[simp] theorem internalCall_acc (s : State) : (internalCall s).acc = s.acc := foldl_keeps State.acc performIdle performIdle_acc ..
@[simp] theorem internalCall_coproc (s : State) : (internalCall s).coproc = s.coproc := foldl_keeps State.coproc performIdle performIdle_coproc ..
@[simp] theorem internalCall_params (s : State) : (internalCall s).params = s.params := foldl_keeps State.params performIdle performIdle_params ..
@[simp] theorem internalCall_freeCount (s : State) : (internalCall s).freeCount = s.freeCount := foldl_keeps State.freeCount performIdle performIdle_freeCount ..

/-! ### coprocCycleCall -/

@[simp] theorem coprocCycleCall_regs (s : State) : (coprocCycleCall s).regs = s.regs := foldl_keeps State.regs performIdle performIdle_regs ..
@[simp] theorem coprocCycleCall_pc (s : State) : (coprocCycleCall s).pc = s.pc := foldl_keeps State.pc performIdle performIdle_pc ..
@[simp] theorem coprocCycleCall_cpsr (s : State) : (coprocCycleCall s).cpsr = s.cpsr := foldl_keeps State.cpsr performIdle performIdle_cpsr ..
@[simp] theorem coprocCycleCall_spsr (s : State) : (coprocCycleCall s).spsr = s.spsr := foldl_keeps State.spsr performIdle performIdle_spsr ..
@[simp] theorem coprocCycleCall_fault (s : State) : (coprocCycleCall s).fault = s.fault := foldl_keeps State.fault performIdle performIdle_fault ..
@[simp] theorem coprocCycleCall_inted (s : State) : (coprocCycleCall s).inted = s.inted := foldl_keeps State.inted performIdle performIdle_inted ..
@[simp] theorem coprocCycleCall_lastInted (s : State) : (coprocCycleCall s).lastInted = s.lastInted := foldl_keeps State.lastInted performIdle performIdle_lastInted ..
@[simp] theorem coprocCycleCall_pipe (s : State) : (coprocCycleCall s).pipe = s.pipe := foldl_keeps State.pipe performIdle performIdle_pipe ..
@[simp] theorem coprocCycleCall_ctr (s : State) : (coprocCycleCall s).ctr = s.ctr := foldl_keeps State.ctr performIdle performIdle_ctr ..
@[simp] theorem coprocCycleCall_acc (s : State) : (coprocCycleCall s).acc = s.acc := foldl_keeps State.acc performIdle performIdle_acc ..
@[simp] theorem coprocCycleCall_coproc (s : State) : (coprocCycleCall s).coproc = s.coproc := foldl_keeps State.coproc performIdle performIdle_coproc ..
@[simp] theorem coprocCycleCall_params (s : State) : (coprocCycleCall s).params = s.params := foldl_keeps State.params performIdle performIdle_params ..
@[simp] theorem coprocCycleCall_freeCount (s : State) : (coprocCycleCall s).freeCount = s.freeCount := foldl_keeps State.freeCount performIdle performIdle_freeCount ..

/-! ### icycles -/

@[simp] theorem icycles_regs (k : Nat) (s : State) : (icycles k s).regs = s.regs := by unfold icycles; split <;> simp
@[simp] theorem icycles_pc (k : Nat) (s : State) : (icycles k s).pc = s.pc := by unfold icycles; split <;> simp
@[simp] theorem icycles_cpsr (k : Nat) (s : State) : (icycles k s).cpsr = s.cpsr := by unfold icycles; split <;> simp
@[simp] theorem icycles_spsr (k : Nat) (s : State) : (icycles k s).spsr = s.spsr := by unfold icycles; split <;> simp
@[simp] theorem icycles_fault (k : Nat) (s : State) : (icycles k s).fault = s.fault := by unfold icycles; split <;> simp
@[simp] theorem icycles_inted (k : Nat) (s : State) : (icycles k s).inted = s.inted := by unfold icycles; split <;> simp
@[simp] theorem icycles_lastInted (k : Nat) (s : State) : (icycles k s).lastInted = s.lastInted := by unfold icycles; split <;> simp
@[simp] theorem icycles_pipe (k : Nat) (s : State) : (icycles k s).pipe = s.pipe := by unfold icycles; split <;> simp
@[simp] theorem icycles_acc (k : Nat) (s : State) : (icycles k s).acc = s.acc := by unfold icycles; split <;> simp
@[simp] theorem icycles_coproc (k : Nat) (s : State) : (icycles k s).coproc = s.coproc := by unfold icycles; split <;> simp
@[simp] theorem icycles_params (k : Nat) (s : State) : (icycles k s).params = s.params := by unfold icycles; split <;> simp
@[simp] theorem icycles_freeCount (k : Nat) (s : State) : (icycles k s).freeCount = s.freeCount := by unfold icycles; split <;> simp

/-! ### ccycles -/

@[simp] theorem ccycles_regs (k : Nat) (s : State) : (ccycles k s).regs = s.regs := by unfold ccycles; split <;> simp
@[simp] theorem ccycles_pc (k : Nat) (s : State) : (ccycles k s).pc = s.pc := by unfold ccycles; split <;> simp
@[simp] theorem ccycles_cpsr (k : Nat) (s : State) : (ccycles k s).cpsr = s.cpsr := by unfold ccycles; split <;> simp
@[simp] theorem ccycles_spsr (k : Nat) (s : State) : (ccycles k s).spsr = s.spsr := by unfold ccycles; split <;> simp
@[simp] theorem ccycles_fault (k : Nat) (s : State) : (ccycles k s).fault = s.fault := by unfold ccycles; split <;> simp
@[simp] theorem ccycles_inted (k : Nat) (s : State) : (ccycles k s).inted = s.inted := by unfold ccycles; split <;> simp
@[simp] theorem ccycles_lastInted (k : Nat) (s : State) : (ccycles k s).lastInted = s.lastInted := by unfold ccycles; split <;> simp
@[simp] theorem ccycles_pipe (k : Nat) (s : State) : (ccycles k s).pipe = s.pipe := by unfold ccycles; split <;> simp
@[simp] theorem ccycles_acc (k : Nat) (s : State) : (ccycles k s).acc = s.acc := by unfold ccycles; split <;> simp
@[simp] theorem ccycles_coproc (k : Nat) (s : State) : (ccycles k s).coproc = s.coproc := by unfold ccycles; split <;> simp
@[simp] theorem ccycles_params (k : Nat) (s : State) : (ccycles k s).params = s.params := by unfold ccycles; split <;> simp
@[simp] theorem ccycles_freeCount (k : Nat) (s : State) : (ccycles k s).freeCount = s.freeCount := by unfold ccycles; split <;> simp

/-! ### charges -/

@[simp] theorem charges_regs (row : Cycles) (s : State) : (charges row s).regs = s.regs := by simp [charges]
@[simp] theorem charges_pc (row : Cycles) (s : State) : (charges row s).pc = s.pc := by simp [charges]
@[simp] theorem charges_cpsr (row : Cycles) (s : State) : (charges row s).cpsr = s.cpsr := by simp [charges]
@[simp] theorem charges_spsr (row : Cycles) (s : State) : (charges row s).spsr = s.spsr := by simp [charges]
@[simp] theorem charges_fault (row : Cycles) (s : State) : (charges row s).fault = s.fault := by simp [charges]
@[simp] theorem charges_inted (row : Cycles) (s : State) : (charges row s).inted = s.inted := by simp [charges]
@[simp] theorem charges_lastInted (row : Cycles) (s : State) : (charges row s).lastInted = s.lastInted := by simp [charges]
@[simp] theorem charges_pipe (row : Cycles) (s : State) : (charges row s).pipe = s.pipe := by simp [charges]
@[simp] theorem charges_acc (row : Cycles) (s : State) : (charges row s).acc = s.acc := by simp [charges]
@[simp] theorem charges_coproc (row : Cycles) (s : State) : (charges row s).coproc = s.coproc := by simp [charges]
@[simp] theorem charges_params (row : Cycles) (s : State) : (charges row s).params = s.params := by simp [charges]
@[simp] theorem charges_freeCount (row : Cycles) (s : State) : (charges row s).freeCount = s.freeCount := by simp [charges]

/-! ### immCycles -/

@[simp] theorem immCycles_regs (s : State) : (immCycles s).regs = s.regs := charges_regs ..
@[simp] theorem immCycles_pc (s : State) : (immCycles s).pc = s.pc := charges_pc ..
@[simp] theorem immCycles_cpsr (s : State) : (immCycles s).cpsr = s.cpsr := charges_cpsr ..
@[simp] theorem immCycles_spsr (s : State) : (immCycles s).spsr = s.spsr := charges_spsr ..
@[simp] theorem immCycles_fault (s : State) : (immCycles s).fault = s.fault := charges_fault ..
@[simp] theorem immCycles_inted (s : State) : (immCycles s).inted = s.inted := charges_inted ..
@[simp] theorem immCycles_lastInted (s : State) : (immCycles s).lastInted = s.lastInted := charges_lastInted ..
@[simp] theorem immCycles_pipe (s : State) : (immCycles s).pipe = s.pipe := charges_pipe ..
@[simp] theorem immCycles_acc (s : State) : (immCycles s).acc = s.acc := charges_acc ..
@[simp] theorem immCycles_coproc (s : State) : (immCycles s).coproc = s.coproc := charges_coproc ..
@[simp] theorem immCycles_params (s : State) : (immCycles s).params = s.params := charges_params ..
@[simp] theorem immCycles_freeCount (s : State) : (immCycles s).freeCount = s.freeCount := charges_freeCount ..

/-! ### shiftCycles -/

@[simp] theorem shiftCycles_regs (s : State) : (shiftCycles s).regs = s.regs := charges_regs ..
@[simp] theorem shiftCycles_pc (s : State) : (shiftCycles s).pc = s.pc := charges_pc ..
@[simp] theorem shiftCycles_cpsr (s : State) : (shiftCycles s).cpsr = s.cpsr := charges_cpsr ..
@[simp] theorem shiftCycles_spsr (s : State) : (shiftCycles s).spsr = s.spsr := charges_spsr ..
@[simp] theorem shiftCycles_fault (s : State) : (shiftCycles s).fault = s.fault := charges_fault ..
@[simp] theorem shiftCycles_inted (s : State) : (shiftCycles s).inted = s.inted := charges_inted ..
@[simp] theorem shiftCycles_lastInted (s : State) : (shiftCycles s).lastInted = s.lastInted := charges_lastInted ..
@[simp] theorem shiftCycles_pipe (s : State) : (shiftCycles s).pipe = s.pipe := charges_pipe ..
@[simp] theorem shiftCycles_acc (s : State) : (shiftCycles s).acc = s.acc := charges_acc ..
@[simp] theorem shiftCycles_coproc (s : State) : (shiftCycles s).coproc = s.coproc := charges_coproc ..
@[simp] theorem shiftCycles_params (s : State) : (shiftCycles s).params = s.params := charges_params ..
@[simp] theorem shiftCycles_freeCount (s : State) : (shiftCycles s).freeCount = s.freeCount := charges_freeCount ..

/-! ### loadCycles -/

@[simp] theorem loadCycles_regs (s : State) : (loadCycles s).regs = s.regs := charges_regs ..
@[simp] theorem loadCycles_pc (s : State) : (loadCycles s).pc = s.pc := charges_pc ..
@[simp] theorem loadCycles_cpsr (s : State) : (loadCycles s).cpsr = s.cpsr := charges_cpsr ..
@[simp] theorem loadCycles_spsr (s : State) : (loadCycles s).spsr = s.spsr := charges_spsr ..
@[simp] theorem loadCycles_fault (s : State) : (loadCycles s).fault = s.fault := charges_fault ..
@[simp] theorem loadCycles_inted (s : State) : (loadCycles s).inted = s.inted := charges_inted ..
@[simp] theorem loadCycles_lastInted (s : State) : (loadCycles s).lastInted = s.lastInted := charges_lastInted ..
@[simp] theorem loadCycles_pipe (s : State) : (loadCycles s).pipe = s.pipe := charges_pipe ..
@[simp] theorem loadCycles_acc (s : State) : (loadCycles s).acc = s.acc := charges_acc ..
@[simp] theorem loadCycles_coproc (s : State) : (loadCycles s).coproc = s.coproc := charges_coproc ..
@[simp] theorem loadCycles_params (s : State) : (loadCycles s).params = s.params := charges_params ..
@[simp] theorem loadCycles_freeCount (s : State) : (loadCycles s).freeCount = s.freeCount := charges_freeCount ..

/-! ### storeCycles -/

@[simp] theorem storeCycles_regs (s : State) : (storeCycles s).regs = s.regs := charges_regs ..
@[simp] theorem storeCycles_pc (s : State) : (storeCycles s).pc = s.pc := charges_pc ..
@[simp] theorem storeCycles_cpsr (s : State) : (storeCycles s).cpsr = s.cpsr := charges_cpsr ..
@[simp] theorem storeCycles_spsr (s : State) : (storeCycles s).spsr = s.spsr := charges_spsr ..
@[simp] theorem storeCycles_fault (s : State) : (storeCycles s).fault = s.fault := charges_fault ..
@[simp] theorem storeCycles_inted (s : State) : (storeCycles s).inted = s.inted := charges_inted ..
@[simp] theorem storeCycles_lastInted (s : State) : (storeCycles s).lastInted = s.lastInted := charges_lastInted ..
@[simp] theorem storeCycles_pipe (s : State) : (storeCycles s).pipe = s.pipe := charges_pipe ..
@[simp] theorem storeCycles_acc (s : State) : (storeCycles s).acc = s.acc := charges_acc ..
@[simp] theorem storeCycles_coproc (s : State) : (storeCycles s).coproc = s.coproc := charges_coproc ..
@[simp] theorem storeCycles_params (s : State) : (storeCycles s).params = s.params := charges_params ..
@[simp] theorem storeCycles_freeCount (s : State) : (storeCycles s).freeCount = s.freeCount := charges_freeCount ..

/-! ### branchCycles -/

@[simp] theorem branchCycles_regs (s : State) : (branchCycles s).regs = s.regs := charges_regs ..
@[simp] theorem branchCycles_pc (s : State) : (branchCycles s).pc = s.pc := charges_pc ..
@[simp] theorem branchCycles_cpsr (s : State) : (branchCycles s).cpsr = s.cpsr := charges_cpsr ..
@[simp] theorem branchCycles_spsr (s : State) : (branchCycles s).spsr = s.spsr := charges_spsr ..
@[simp] theorem branchCycles_fault (s : State) : (branchCycles s).fault = s.fault := charges_fault ..
@[simp] theorem branchCycles_inted (s : State) : (branchCycles s).inted = s.inted := charges_inted ..
@[simp] theorem branchCycles_lastInted (s : State) : (branchCycles s).lastInted = s.lastInted := charges_lastInted ..
@[simp] theorem branchCycles_pipe (s : State) : (branchCycles s).pipe = s.pipe := charges_pipe ..
@[simp] theorem branchCycles_acc (s : State) : (branchCycles s).acc = s.acc := charges_acc ..
@[simp] theorem branchCycles_coproc (s : State) : (branchCycles s).coproc = s.coproc := charges_coproc ..
@[simp] theorem branchCycles_params (s : State) : (branchCycles s).params = s.params := charges_params ..
@[simp] theorem branchCycles_freeCount (s : State) : (branchCycles s).freeCount = s.freeCount := charges_freeCount ..

/-! ### statusCycles -/

@[simp] theorem statusCycles_regs (s : State) : (statusCycles s).regs = s.regs := charges_regs ..
@[simp] theorem statusCycles_pc (s : State) : (statusCycles s).pc = s.pc := charges_pc ..
@[simp] theorem statusCycles_cpsr (s : State) : (statusCycles s).cpsr = s.cpsr := charges_cpsr ..
@[simp] theorem statusCycles_spsr (s : State) : (statusCycles s).spsr = s.spsr := charges_spsr ..
@[simp] theorem statusCycles_fault (s : State) : (statusCycles s).fault = s.fault := charges_fault ..
@[simp] theorem statusCycles_inted (s : State) : (statusCycles s).inted = s.inted := charges_inted ..
@[simp] theorem statusCycles_lastInted (s : State) : (statusCycles s).lastInted = s.lastInted := charges_lastInted ..
@[simp] theorem statusCycles_pipe (s : State) : (statusCycles s).pipe = s.pipe := charges_pipe ..
@[simp] theorem statusCycles_acc (s : State) : (statusCycles s).acc = s.acc := charges_acc ..
@[simp] theorem statusCycles_coproc (s : State) : (statusCycles s).coproc = s.coproc := charges_coproc ..
@[simp] theorem statusCycles_params (s : State) : (statusCycles s).params = s.params := charges_params ..
@[simp] theorem statusCycles_freeCount (s : State) : (statusCycles s).freeCount = s.freeCount := charges_freeCount ..

/-! ### transferCycles -/

@[simp] theorem transferCycles_regs (s : State) : (transferCycles s).regs = s.regs := charges_regs ..
@[simp] theorem transferCycles_pc (s : State) : (transferCycles s).pc = s.pc := charges_pc ..
@[simp] theorem transferCycles_cpsr (s : State) : (transferCycles s).cpsr = s.cpsr := charges_cpsr ..
@[simp] theorem transferCycles_spsr (s : State) : (transferCycles s).spsr = s.spsr := charges_spsr ..
@[simp] theorem transferCycles_fault (s : State) : (transferCycles s).fault = s.fault := charges_fault ..
@[simp] theorem transferCycles_inted (s : State) : (transferCycles s).inted = s.inted := charges_inted ..
@[simp] theorem transferCycles_lastInted (s : State) : (transferCycles s).lastInted = s.lastInted := charges_lastInted ..
@[simp] theorem transferCycles_pipe (s : State) : (transferCycles s).pipe = s.pipe := charges_pipe ..
@[simp] theorem transferCycles_acc (s : State) : (transferCycles s).acc = s.acc := charges_acc ..
@[simp] theorem transferCycles_coproc (s : State) : (transferCycles s).coproc = s.coproc := charges_coproc ..
@[simp] theorem transferCycles_params (s : State) : (transferCycles s).params = s.params := charges_params ..
@[simp] theorem transferCycles_freeCount (s : State) : (transferCycles s).freeCount = s.freeCount := charges_freeCount ..

/-! ### clearAborted -/

@[simp] theorem clearAborted_regs (s : State) : (clearAborted s).regs = s.regs := by unfold clearAborted; split <;> rfl
@[simp] theorem clearAborted_pc (s : State) : (clearAborted s).pc = s.pc := by unfold clearAborted; split <;> rfl
@[simp] theorem clearAborted_cpsr (s : State) : (clearAborted s).cpsr = s.cpsr := by unfold clearAborted; split <;> rfl
@[simp] theorem clearAborted_spsr (s : State) : (clearAborted s).spsr = s.spsr := by unfold clearAborted; split <;> rfl
@[simp] theorem clearAborted_inted (s : State) : (clearAborted s).inted = s.inted := by unfold clearAborted; split <;> rfl
@[simp] theorem clearAborted_lastInted (s : State) : (clearAborted s).lastInted = s.lastInted := by unfold clearAborted; split <;> rfl
@[simp] theorem clearAborted_pipe (s : State) : (clearAborted s).pipe = s.pipe := by unfold clearAborted; split <;> rfl
@[simp] theorem clearAborted_ctr (s : State) : (clearAborted s).ctr = s.ctr := by unfold clearAborted; split <;> rfl
@[simp] theorem clearAborted_acc (s : State) : (clearAborted s).acc = s.acc := by unfold clearAborted; split <;> rfl
@[simp] theorem clearAborted_coproc (s : State) : (clearAborted s).coproc = s.coproc := by unfold clearAborted; split <;> rfl
@[simp] theorem clearAborted_sched (s : State) : (clearAborted s).sched = s.sched := by unfold clearAborted; split <;> rfl
@[simp] theorem clearAborted_lines (s : State) : (clearAborted s).lines = s.lines := by unfold clearAborted; split <;> rfl
@[simp] theorem clearAborted_dbg (s : State) : (clearAborted s).dbg = s.dbg := by unfold clearAborted; split <;> rfl
@[simp] theorem clearAborted_mem (s : State) : (clearAborted s).mem = s.mem := by unfold clearAborted; split <;> rfl
@[simp] theorem clearAborted_collab (s : State) : (clearAborted s).collab = s.collab := by unfold clearAborted; split <;> rfl
@[simp] theorem clearAborted_params (s : State) : (clearAborted s).params = s.params := by unfold clearAborted; split <;> rfl
@[simp] theorem clearAborted_freeCount (s : State) : (clearAborted s).freeCount = s.freeCount := by unfold clearAborted; split <;> rfl

/-! ### landStore -/

@[simp] theorem landStore_regs (k : Access) (sz : Size) (a : Word) (v : Option Word) (ms : List Region) (s : State) : (landStore k sz a v ms s).regs = s.regs := by cases v with | none => rfl | some v => simp only [landStore]; split <;> rfl
@[simp] theorem landStore_pc (k : Access) (sz : Size) (a : Word) (v : Option Word) (ms : List Region) (s : State) : (landStore k sz a v ms s).pc = s.pc := by cases v with | none => rfl | some v => simp only [landStore]; split <;> rfl
@[simp] theorem landStore_cpsr (k : Access) (sz : Size) (a : Word) (v : Option Word) (ms : List Region) (s : State) : (landStore k sz a v ms s).cpsr = s.cpsr := by cases v with | none => rfl | some v => simp only [landStore]; split <;> rfl
@[simp] theorem landStore_spsr (k : Access) (sz : Size) (a : Word) (v : Option Word) (ms : List Region) (s : State) : (landStore k sz a v ms s).spsr = s.spsr := by cases v with | none => rfl | some v => simp only [landStore]; split <;> rfl
@[simp] theorem landStore_fault (k : Access) (sz : Size) (a : Word) (v : Option Word) (ms : List Region) (s : State) : (landStore k sz a v ms s).fault = s.fault := by cases v with | none => rfl | some v => simp only [landStore]; split <;> rfl
@[simp] theorem landStore_inted (k : Access) (sz : Size) (a : Word) (v : Option Word) (ms : List Region) (s : State) : (landStore k sz a v ms s).inted = s.inted := by cases v with | none => rfl | some v => simp only [landStore]; split <;> rfl
@[simp] theorem landStore_lastInted (k : Access) (sz : Size) (a : Word) (v : Option Word) (ms : List Region) (s : State) : (landStore k sz a v ms s).lastInted = s.lastInted := by cases v with | none => rfl | some v => simp only [landStore]; split <;> rfl
@[simp] theorem landStore_pipe (k : Access) (sz : Size) (a : Word) (v : Option Word) (ms : List Region) (s : State) : (landStore k sz a v ms s).pipe = s.pipe := by cases v with | none => rfl | some v => simp only [landStore]; split <;> rfl
@[simp] theorem landStore_ctr (k : Access) (sz : Size) (a : Word) (v : Option Word) (ms : List Region) (s : State) : (landStore k sz a v ms s).ctr = s.ctr := by cases v with | none => rfl | some v => simp only [landStore]; split <;> rfl
@[simp] theorem landStore_acc (k : Access) (sz : Size) (a : Word) (v : Option Word) (ms : List Region) (s : State) : (landStore k sz a v ms s).acc = s.acc := by cases v with | none => rfl | some v => simp only [landStore]; split <;> rfl
@[simp] theorem landStore_coproc (k : Access) (sz : Size) (a : Word) (v : Option Word) (ms : List Region) (s : State) : (landStore k sz a v ms s).coproc = s.coproc := by cases v with | none => rfl | some v => simp only [landStore]; split <;> rfl
@[simp] theorem landStore_sched (k : Access) (sz : Size) (a : Word) (v : Option Word) (ms : List Region) (s : State) : (landStore k sz a v ms s).sched = s.sched := by cases v with | none => rfl | some v => simp only [landStore]; split <;> rfl
@[simp] theorem landStore_lines (k : Access) (sz : Size) (a : Word) (v : Option Word) (ms : List Region) (s : State) : (landStore k sz a v ms s).lines = s.lines := by cases v with | none => rfl | some v => simp only [landStore]; split <;> rfl
@[simp] theorem landStore_dbg (k : Access) (sz : Size) (a : Word) (v : Option Word) (ms : List Region) (s : State) : (landStore k sz a v ms s).dbg = s.dbg := by cases v with | none => rfl | some v => simp only [landStore]; split <;> rfl
@[simp] theorem landStore_collab (k : Access) (sz : Size) (a : Word) (v : Option Word) (ms : List Region) (s : State) : (landStore k sz a v ms s).collab = s.collab := by cases v with | none => rfl | some v => simp only [landStore]; split <;> rfl
@[simp] theorem landStore_params (k : Access) (sz : Size) (a : Word) (v : Option Word) (ms : List Region) (s : State) : (landStore k sz a v ms s).params = s.params := by cases v with | none => rfl | some v => simp only [landStore]; split <;> rfl
@[simp] theorem landStore_freeCount (k : Access) (sz : Size) (a : Word) (v : Option Word) (ms : List Region) (s : State) : (landStore k sz a v ms s).freeCount = s.freeCount := by cases v with | none => rfl | some v => simp only [landStore]; split <;> rfl

/-! ### setNz -/

@[simp] theorem setNz_regs (r : Word) (s : State) : (setNz r s).regs = s.regs := rfl
@[simp] theorem setNz_pc (r : Word) (s : State) : (setNz r s).pc = s.pc := rfl
@[simp] theorem setNz_spsr (r : Word) (s : State) : (setNz r s).spsr = s.spsr := rfl
@[simp] theorem setNz_fault (r : Word) (s : State) : (setNz r s).fault = s.fault := rfl
@[simp] theorem setNz_inted (r : Word) (s : State) : (setNz r s).inted = s.inted := rfl
@[simp] theorem setNz_lastInted (r : Word) (s : State) : (setNz r s).lastInted = s.lastInted := rfl
@[simp] theorem setNz_pipe (r : Word) (s : State) : (setNz r s).pipe = s.pipe := rfl
@[simp] theorem setNz_ctr (r : Word) (s : State) : (setNz r s).ctr = s.ctr := rfl
@[simp] theorem setNz_acc (r : Word) (s : State) : (setNz r s).acc = s.acc := rfl
@[simp] theorem setNz_coproc (r : Word) (s : State) : (setNz r s).coproc = s.coproc := rfl
@[simp] theorem setNz_sched (r : Word) (s : State) : (setNz r s).sched = s.sched := rfl
@[simp] theorem setNz_lines (r : Word) (s : State) : (setNz r s).lines = s.lines := rfl
@[simp] theorem setNz_dbg (r : Word) (s : State) : (setNz r s).dbg = s.dbg := rfl
@[simp] theorem setNz_mem (r : Word) (s : State) : (setNz r s).mem = s.mem := rfl
@[simp] theorem setNz_collab (r : Word) (s : State) : (setNz r s).collab = s.collab := rfl
@[simp] theorem setNz_params (r : Word) (s : State) : (setNz r s).params = s.params := rfl
@[simp] theorem setNz_freeCount (r : Word) (s : State) : (setNz r s).freeCount = s.freeCount := rfl

/-! ### setFlags -/

@[simp] theorem setFlags_regs (r : AluOut) (s : State) : (setFlags r s).regs = s.regs := rfl
@[simp] theorem setFlags_pc (r : AluOut) (s : State) : (setFlags r s).pc = s.pc := rfl
@[simp] theorem setFlags_spsr (r : AluOut) (s : State) : (setFlags r s).spsr = s.spsr := rfl
@[simp] theorem setFlags_fault (r : AluOut) (s : State) : (setFlags r s).fault = s.fault := rfl
@[simp] theorem setFlags_inted (r : AluOut) (s : State) : (setFlags r s).inted = s.inted := rfl
@[simp] theorem setFlags_lastInted (r : AluOut) (s : State) : (setFlags r s).lastInted = s.lastInted := rfl
@[simp] theorem setFlags_pipe (r : AluOut) (s : State) : (setFlags r s).pipe = s.pipe := rfl
@[simp] theorem setFlags_ctr (r : AluOut) (s : State) : (setFlags r s).ctr = s.ctr := rfl
@[simp] theorem setFlags_acc (r : AluOut) (s : State) : (setFlags r s).acc = s.acc := rfl
@[simp] theorem setFlags_coproc (r : AluOut) (s : State) : (setFlags r s).coproc = s.coproc := rfl
@[simp] theorem setFlags_sched (r : AluOut) (s : State) : (setFlags r s).sched = s.sched := rfl
@[simp] theorem setFlags_lines (r : AluOut) (s : State) : (setFlags r s).lines = s.lines := rfl
@[simp] theorem setFlags_dbg (r : AluOut) (s : State) : (setFlags r s).dbg = s.dbg := rfl
@[simp] theorem setFlags_mem (r : AluOut) (s : State) : (setFlags r s).mem = s.mem := rfl
@[simp] theorem setFlags_collab (r : AluOut) (s : State) : (setFlags r s).collab = s.collab := rfl
@[simp] theorem setFlags_params (r : AluOut) (s : State) : (setFlags r s).params = s.params := rfl
@[simp] theorem setFlags_freeCount (r : AluOut) (s : State) : (setFlags r s).freeCount = s.freeCount := rfl

/-! ### setNz64 -/

@[simp] theorem setNz64_regs (r : BitVec 64) (s : State) : (setNz64 r s).regs = s.regs := rfl
@[simp] theorem setNz64_pc (r : BitVec 64) (s : State) : (setNz64 r s).pc = s.pc := rfl
@[simp] theorem setNz64_spsr (r : BitVec 64) (s : State) : (setNz64 r s).spsr = s.spsr := rfl
@[simp] theorem setNz64_fault (r : BitVec 64) (s : State) : (setNz64 r s).fault = s.fault := rfl
@[simp] theorem setNz64_inted (r : BitVec 64) (s : State) : (setNz64 r s).inted = s.inted := rfl
@[simp] theorem setNz64_lastInted (r : BitVec 64) (s : State) : (setNz64 r s).lastInted = s.lastInted := rfl
@[simp] theorem setNz64_pipe (r : BitVec 64) (s : State) : (setNz64 r s).pipe = s.pipe := rfl
@[simp] theorem setNz64_ctr (r : BitVec 64) (s : State) : (setNz64 r s).ctr = s.ctr := rfl
@[simp] theorem setNz64_acc (r : BitVec 64) (s : State) : (setNz64 r s).acc = s.acc := rfl
@[simp] theorem setNz64_coproc (r : BitVec 64) (s : State) : (setNz64 r s).coproc = s.coproc := rfl
@[simp] theorem setNz64_sched (r : BitVec 64) (s : State) : (setNz64 r s).sched = s.sched := rfl
@[simp] theorem setNz64_lines (r : BitVec 64) (s : State) : (setNz64 r s).lines = s.lines := rfl
@[simp] theorem setNz64_dbg (r : BitVec 64) (s : State) : (setNz64 r s).dbg = s.dbg := rfl
@[simp] theorem setNz64_mem (r : BitVec 64) (s : State) : (setNz64 r s).mem = s.mem := rfl
@[simp] theorem setNz64_collab (r : BitVec 64) (s : State) : (setNz64 r s).collab = s.collab := rfl
@[simp] theorem setNz64_params (r : BitVec 64) (s : State) : (setNz64 r s).params = s.params := rfl
@[simp] theorem setNz64_freeCount (r : BitVec 64) (s : State) : (setNz64 r s).freeCount = s.freeCount := rfl

/-! ### flagsOfWord -/

@[simp] theorem flagsOfWord_regs (w : Word) (s : State) : (flagsOfWord w s).regs = s.regs := rfl
@[simp] theorem flagsOfWord_pc (w : Word) (s : State) : (flagsOfWord w s).pc = s.pc := rfl
@[simp] theorem flagsOfWord_spsr (w : Word) (s : State) : (flagsOfWord w s).spsr = s.spsr := rfl
@[simp] theorem flagsOfWord_fault (w : Word) (s : State) : (flagsOfWord w s).fault = s.fault := rfl
@[simp] theorem flagsOfWord_inted (w : Word) (s : State) : (flagsOfWord w s).inted = s.inted := rfl
@[simp] theorem flagsOfWord_lastInted (w : Word) (s : State) : (flagsOfWord w s).lastInted = s.lastInted := rfl
@[simp] theorem flagsOfWord_pipe (w : Word) (s : State) : (flagsOfWord w s).pipe = s.pipe := rfl
@[simp] theorem flagsOfWord_ctr (w : Word) (s : State) : (flagsOfWord w s).ctr = s.ctr := rfl
@[simp] theorem flagsOfWord_acc (w : Word) (s : State) : (flagsOfWord w s).acc = s.acc := rfl
@[simp] theorem flagsOfWord_coproc (w : Word) (s : State) : (flagsOfWord w s).coproc = s.coproc := rfl
@[simp] theorem flagsOfWord_sched (w : Word) (s : State) : (flagsOfWord w s).sched = s.sched := rfl
@[simp] theorem flagsOfWord_lines (w : Word) (s : State) : (flagsOfWord w s).lines = s.lines := rfl
@[simp] theorem flagsOfWord_dbg (w : Word) (s : State) : (flagsOfWord w s).dbg = s.dbg := rfl
@[simp] theorem flagsOfWord_mem (w : Word) (s : State) : (flagsOfWord w s).mem = s.mem := rfl
@[simp] theorem flagsOfWord_collab (w : Word) (s : State) : (flagsOfWord w s).collab = s.collab := rfl
@[simp] theorem flagsOfWord_params (w : Word) (s : State) : (flagsOfWord w s).params = s.params := rfl
@[simp] theorem flagsOfWord_freeCount (w : Word) (s : State) : (flagsOfWord w s).freeCount = s.freeCount := rfl

/-! ### freeC -/

@[simp] theorem freeC_regs (s : State) : (freeC s).regs = s.regs := rfl
@[simp] theorem freeC_pc (s : State) : (freeC s).pc = s.pc := rfl
@[simp] theorem freeC_spsr (s : State) : (freeC s).spsr = s.spsr := rfl
@[simp] theorem freeC_fault (s : State) : (freeC s).fault = s.fault := rfl
@[simp] theorem freeC_inted (s : State) : (freeC s).inted = s.inted := rfl
@[simp] theorem freeC_lastInted (s : State) : (freeC s).lastInted = s.lastInted := rfl
@[simp] theorem freeC_pipe (s : State) : (freeC s).pipe = s.pipe := rfl
@[simp] theorem freeC_ctr (s : State) : (freeC s).ctr = s.ctr := rfl
@[simp] theorem freeC_acc (s : State) : (freeC s).acc = s.acc := rfl
@[simp] theorem freeC_coproc (s : State) : (freeC s).coproc = s.coproc := rfl
@[simp] theorem freeC_sched (s : State) : (freeC s).sched = s.sched := rfl
@[simp] theorem freeC_lines (s : State) : (freeC s).lines = s.lines := rfl
@[simp] theorem freeC_dbg (s : State) : (freeC s).dbg = s.dbg := rfl
@[simp] theorem freeC_mem (s : State) : (freeC s).mem = s.mem := rfl
@[simp] theorem freeC_collab (s : State) : (freeC s).collab = s.collab := rfl
@[simp] theorem freeC_params (s : State) : (freeC s).params = s.params := rfl

/-! ### freeV -/

@[simp] theorem freeV_regs (s : State) : (freeV s).regs = s.regs := rfl
@[simp] theorem freeV_pc (s : State) : (freeV s).pc = s.pc := rfl
@[simp] theorem freeV_spsr (s : State) : (freeV s).spsr = s.spsr := rfl
@[simp] theorem freeV_fault (s : State) : (freeV s).fault = s.fault := rfl
@[simp] theorem freeV_inted (s : State) : (freeV s).inted = s.inted := rfl
@[simp] theorem freeV_lastInted (s : State) : (freeV s).lastInted = s.lastInted := rfl
@[simp] theorem freeV_pipe (s : State) : (freeV s).pipe = s.pipe := rfl
@[simp] theorem freeV_ctr (s : State) : (freeV s).ctr = s.ctr := rfl
@[simp] theorem freeV_acc (s : State) : (freeV s).acc = s.acc := rfl
@[simp] theorem freeV_coproc (s : State) : (freeV s).coproc = s.coproc := rfl
@[simp] theorem freeV_sched (s : State) : (freeV s).sched = s.sched := rfl
@[simp] theorem freeV_lines (s : State) : (freeV s).lines = s.lines := rfl
@[simp] theorem freeV_dbg (s : State) : (freeV s).dbg = s.dbg := rfl
@[simp] theorem freeV_mem (s : State) : (freeV s).mem = s.mem := rfl
@[simp] theorem freeV_collab (s : State) : (freeV s).collab = s.collab := rfl
@[simp] theorem freeV_params (s : State) : (freeV s).params = s.params := rfl

/-! ### flush -/

@[simp] theorem flush_regs (s : State) : (flush s).regs = s.regs := rfl
@[simp] theorem flush_pc (s : State) : (flush s).pc = s.pc := rfl
@[simp] theorem flush_cpsr (s : State) : (flush s).cpsr = s.cpsr := rfl
@[simp] theorem flush_spsr (s : State) : (flush s).spsr = s.spsr := rfl
@[simp] theorem flush_fault (s : State) : (flush s).fault = s.fault := rfl
@[simp] theorem flush_inted (s : State) : (flush s).inted = s.inted := rfl
@[simp] theorem flush_lastInted (s : State) : (flush s).lastInted = s.lastInted := rfl
@[simp] theorem flush_ctr (s : State) : (flush s).ctr = s.ctr := rfl
@[simp] theorem flush_acc (s : State) : (flush s).acc = s.acc := rfl
@[simp] theorem flush_coproc (s : State) : (flush s).coproc = s.coproc := rfl
@[simp] theorem flush_sched (s : State) : (flush s).sched = s.sched := rfl
@[simp] theorem flush_lines (s : State) : (flush s).lines = s.lines := rfl
@[simp] theorem flush_dbg (s : State) : (flush s).dbg = s.dbg := rfl
@[simp] theorem flush_mem (s : State) : (flush s).mem = s.mem := rfl
@[simp] theorem flush_collab (s : State) : (flush s).collab = s.collab := rfl
@[simp] theorem flush_params (s : State) : (flush s).params = s.params := rfl
@[simp] theorem flush_freeCount (s : State) : (flush s).freeCount = s.freeCount := rfl

/-! ### halted -/

@[simp] theorem halted_regs (r : HaltReason) (s : State) : (halted r s).regs = s.regs := rfl
@[simp] theorem halted_pc (r : HaltReason) (s : State) : (halted r s).pc = s.pc := rfl
@[simp] theorem halted_cpsr (r : HaltReason) (s : State) : (halted r s).cpsr = s.cpsr := rfl
@[simp] theorem halted_spsr (r : HaltReason) (s : State) : (halted r s).spsr = s.spsr := rfl
@[simp] theorem halted_fault (r : HaltReason) (s : State) : (halted r s).fault = s.fault := rfl
@[simp] theorem halted_inted (r : HaltReason) (s : State) : (halted r s).inted = s.inted := rfl
@[simp] theorem halted_lastInted (r : HaltReason) (s : State) : (halted r s).lastInted = s.lastInted := rfl
@[simp] theorem halted_pipe (r : HaltReason) (s : State) : (halted r s).pipe = s.pipe := rfl
@[simp] theorem halted_ctr (r : HaltReason) (s : State) : (halted r s).ctr = s.ctr := rfl
@[simp] theorem halted_acc (r : HaltReason) (s : State) : (halted r s).acc = s.acc := rfl
@[simp] theorem halted_coproc (r : HaltReason) (s : State) : (halted r s).coproc = s.coproc := rfl
@[simp] theorem halted_sched (r : HaltReason) (s : State) : (halted r s).sched = s.sched := rfl
@[simp] theorem halted_lines (r : HaltReason) (s : State) : (halted r s).lines = s.lines := rfl
@[simp] theorem halted_mem (r : HaltReason) (s : State) : (halted r s).mem = s.mem := rfl
@[simp] theorem halted_collab (r : HaltReason) (s : State) : (halted r s).collab = s.collab := rfl
@[simp] theorem halted_params (r : HaltReason) (s : State) : (halted r s).params = s.params := rfl
@[simp] theorem halted_freeCount (r : HaltReason) (s : State) : (halted r s).freeCount = s.freeCount := rfl

/-! ### clearHalt -/

@[simp] theorem clearHalt_regs (s : State) : (clearHalt s).regs = s.regs := rfl
@[simp] theorem clearHalt_pc (s : State) : (clearHalt s).pc = s.pc := rfl
@[simp] theorem clearHalt_cpsr (s : State) : (clearHalt s).cpsr = s.cpsr := rfl
@[simp] theorem clearHalt_spsr (s : State) : (clearHalt s).spsr = s.spsr := rfl
@[simp] theorem clearHalt_fault (s : State) : (clearHalt s).fault = s.fault := rfl
@[simp] theorem clearHalt_inted (s : State) : (clearHalt s).inted = s.inted := rfl
@[simp] theorem clearHalt_lastInted (s : State) : (clearHalt s).lastInted = s.lastInted := rfl
@[simp] theorem clearHalt_pipe (s : State) : (clearHalt s).pipe = s.pipe := rfl
@[simp] theorem clearHalt_ctr (s : State) : (clearHalt s).ctr = s.ctr := rfl
@[simp] theorem clearHalt_acc (s : State) : (clearHalt s).acc = s.acc := rfl
@[simp] theorem clearHalt_coproc (s : State) : (clearHalt s).coproc = s.coproc := rfl
@[simp] theorem clearHalt_sched (s : State) : (clearHalt s).sched = s.sched := rfl
@[simp] theorem clearHalt_lines (s : State) : (clearHalt s).lines = s.lines := rfl
@[simp] theorem clearHalt_mem (s : State) : (clearHalt s).mem = s.mem := rfl
@[simp] theorem clearHalt_collab (s : State) : (clearHalt s).collab = s.collab := rfl
@[simp] theorem clearHalt_params (s : State) : (clearHalt s).params = s.params := rfl
@[simp] theorem clearHalt_freeCount (s : State) : (clearHalt s).freeCount = s.freeCount := rfl

/-! ### spendBudget -/

@[simp] theorem spendBudget_regs (s : State) : (spendBudget s).regs = s.regs := rfl
@[simp] theorem spendBudget_pc (s : State) : (spendBudget s).pc = s.pc := rfl
@[simp] theorem spendBudget_cpsr (s : State) : (spendBudget s).cpsr = s.cpsr := rfl
@[simp] theorem spendBudget_spsr (s : State) : (spendBudget s).spsr = s.spsr := rfl
@[simp] theorem spendBudget_fault (s : State) : (spendBudget s).fault = s.fault := rfl
@[simp] theorem spendBudget_inted (s : State) : (spendBudget s).inted = s.inted := rfl
@[simp] theorem spendBudget_lastInted (s : State) : (spendBudget s).lastInted = s.lastInted := rfl
@[simp] theorem spendBudget_pipe (s : State) : (spendBudget s).pipe = s.pipe := rfl
@[simp] theorem spendBudget_ctr (s : State) : (spendBudget s).ctr = s.ctr := rfl
@[simp] theorem spendBudget_acc (s : State) : (spendBudget s).acc = s.acc := rfl
@[simp] theorem spendBudget_coproc (s : State) : (spendBudget s).coproc = s.coproc := rfl
@[simp] theorem spendBudget_sched (s : State) : (spendBudget s).sched = s.sched := rfl
@[simp] theorem spendBudget_lines (s : State) : (spendBudget s).lines = s.lines := rfl
@[simp] theorem spendBudget_mem (s : State) : (spendBudget s).mem = s.mem := rfl
@[simp] theorem spendBudget_collab (s : State) : (spendBudget s).collab = s.collab := rfl
@[simp] theorem spendBudget_params (s : State) : (spendBudget s).params = s.params := rfl
@[simp] theorem spendBudget_freeCount (s : State) : (spendBudget s).freeCount = s.freeCount := rfl

/-! ### debugHook -/

@[simp] theorem debugHook_regs (pc w : Word) (s : State) : (debugHook pc w s).regs = s.regs := rfl
@[simp] theorem debugHook_pc (pc w : Word) (s : State) : (debugHook pc w s).pc = s.pc := rfl
@[simp] theorem debugHook_cpsr (pc w : Word) (s : State) : (debugHook pc w s).cpsr = s.cpsr := rfl
@[simp] theorem debugHook_spsr (pc w : Word) (s : State) : (debugHook pc w s).spsr = s.spsr := rfl
@[simp] theorem debugHook_fault (pc w : Word) (s : State) : (debugHook pc w s).fault = s.fault := rfl
@[simp] theorem debugHook_inted (pc w : Word) (s : State) : (debugHook pc w s).inted = s.inted := rfl
@[simp] theorem debugHook_lastInted (pc w : Word) (s : State) : (debugHook pc w s).lastInted = s.lastInted := rfl
@[simp] theorem debugHook_pipe (pc w : Word) (s : State) : (debugHook pc w s).pipe = s.pipe := rfl
@[simp] theorem debugHook_ctr (pc w : Word) (s : State) : (debugHook pc w s).ctr = s.ctr := rfl
@[simp] theorem debugHook_acc (pc w : Word) (s : State) : (debugHook pc w s).acc = s.acc := rfl
@[simp] theorem debugHook_coproc (pc w : Word) (s : State) : (debugHook pc w s).coproc = s.coproc := rfl
@[simp] theorem debugHook_sched (pc w : Word) (s : State) : (debugHook pc w s).sched = s.sched := rfl
@[simp] theorem debugHook_lines (pc w : Word) (s : State) : (debugHook pc w s).lines = s.lines := rfl
@[simp] theorem debugHook_mem (pc w : Word) (s : State) : (debugHook pc w s).mem = s.mem := rfl
@[simp] theorem debugHook_params (pc w : Word) (s : State) : (debugHook pc w s).params = s.params := rfl
@[simp] theorem debugHook_freeCount (pc w : Word) (s : State) : (debugHook pc w s).freeCount = s.freeCount := rfl

/-! ### advanceClock -/

@[simp] theorem advanceClock_regs (s : State) : (advanceClock s).regs = s.regs := rfl
@[simp] theorem advanceClock_pc (s : State) : (advanceClock s).pc = s.pc := rfl
@[simp] theorem advanceClock_cpsr (s : State) : (advanceClock s).cpsr = s.cpsr := rfl
@[simp] theorem advanceClock_spsr (s : State) : (advanceClock s).spsr = s.spsr := rfl
@[simp] theorem advanceClock_fault (s : State) : (advanceClock s).fault = s.fault := rfl
@[simp] theorem advanceClock_inted (s : State) : (advanceClock s).inted = s.inted := rfl
@[simp] theorem advanceClock_lastInted (s : State) : (advanceClock s).lastInted = s.lastInted := rfl
@[simp] theorem advanceClock_pipe (s : State) : (advanceClock s).pipe = s.pipe := rfl
@[simp] theorem advanceClock_acc (s : State) : (advanceClock s).acc = s.acc := rfl
@[simp] theorem advanceClock_coproc (s : State) : (advanceClock s).coproc = s.coproc := rfl
@[simp] theorem advanceClock_sched (s : State) : (advanceClock s).sched = s.sched := rfl
@[simp] theorem advanceClock_lines (s : State) : (advanceClock s).lines = s.lines := rfl
@[simp] theorem advanceClock_dbg (s : State) : (advanceClock s).dbg = s.dbg := rfl
@[simp] theorem advanceClock_mem (s : State) : (advanceClock s).mem = s.mem := rfl
@[simp] theorem advanceClock_collab (s : State) : (advanceClock s).collab = s.collab := rfl
@[simp] theorem advanceClock_params (s : State) : (advanceClock s).params = s.params := rfl
@[simp] theorem advanceClock_freeCount (s : State) : (advanceClock s).freeCount = s.freeCount := rfl

/-! ### abortCall -/

@[simp] theorem abortCall_regs (k : AbortKind) (a : Word) (s : State) : (abortCall k a s).regs = s.regs := by unfold abortCall; split <;> rfl
@[simp] theorem abortCall_pc (k : AbortKind) (a : Word) (s : State) : (abortCall k a s).pc = s.pc := by unfold abortCall; split <;> rfl
@[simp] theorem abortCall_cpsr (k : AbortKind) (a : Word) (s : State) : (abortCall k a s).cpsr = s.cpsr := by unfold abortCall; split <;> rfl
@[simp] theorem abortCall_spsr (k : AbortKind) (a : Word) (s : State) : (abortCall k a s).spsr = s.spsr := by unfold abortCall; split <;> rfl
@[simp] theorem abortCall_inted (k : AbortKind) (a : Word) (s : State) : (abortCall k a s).inted = s.inted := by unfold abortCall; split <;> rfl
@[simp] theorem abortCall_lastInted (k : AbortKind) (a : Word) (s : State) : (abortCall k a s).lastInted = s.lastInted := by unfold abortCall; split <;> rfl
@[simp] theorem abortCall_pipe (k : AbortKind) (a : Word) (s : State) : (abortCall k a s).pipe = s.pipe := by unfold abortCall; split <;> rfl
@[simp] theorem abortCall_ctr (k : AbortKind) (a : Word) (s : State) : (abortCall k a s).ctr = s.ctr := by unfold abortCall; split <;> rfl
@[simp] theorem abortCall_acc (k : AbortKind) (a : Word) (s : State) : (abortCall k a s).acc = s.acc := by unfold abortCall; split <;> rfl
@[simp] theorem abortCall_coproc (k : AbortKind) (a : Word) (s : State) : (abortCall k a s).coproc = s.coproc := by unfold abortCall; split <;> rfl
@[simp] theorem abortCall_sched (k : AbortKind) (a : Word) (s : State) : (abortCall k a s).sched = s.sched := by unfold abortCall; split <;> rfl
@[simp] theorem abortCall_lines (k : AbortKind) (a : Word) (s : State) : (abortCall k a s).lines = s.lines := by unfold abortCall; split <;> rfl
@[simp] theorem abortCall_dbg (k : AbortKind) (a : Word) (s : State) : (abortCall k a s).dbg = s.dbg := by unfold abortCall; split <;> rfl
@[simp] theorem abortCall_mem (k : AbortKind) (a : Word) (s : State) : (abortCall k a s).mem = s.mem := by unfold abortCall; split <;> rfl
@[simp] theorem abortCall_collab (k : AbortKind) (a : Word) (s : State) : (abortCall k a s).collab = s.collab := by unfold abortCall; split <;> rfl
@[simp] theorem abortCall_params (k : AbortKind) (a : Word) (s : State) : (abortCall k a s).params = s.params := by unfold abortCall; split <;> rfl
@[simp] theorem abortCall_freeCount (k : AbortKind) (a : Word) (s : State) : (abortCall k a s).freeCount = s.freeCount := by unfold abortCall; split <;> rfl

/-! ### The fields the updates change -/

@[simp] theorem countAccess_n_ctr (k : Nat) (s : State) :
    (countAccess .n k s).ctr = { s.ctr with numN := s.ctr.numN + k, cost := s.ctr.cost + k } := rfl
@[simp] theorem countAccess_s_ctr (k : Nat) (s : State) :
    (countAccess .s k s).ctr = { s.ctr with numS := s.ctr.numS + k, cost := s.ctr.cost + k } := rfl
@[simp] theorem icycles_ctr (k : Nat) (s : State) :
    (icycles k s).ctr = { s.ctr with numI := s.ctr.numI + k, cost := s.ctr.cost + k } := by
  unfold icycles; split <;> simp_all
@[simp] theorem ccycles_ctr (k : Nat) (s : State) :
    (ccycles k s).ctr = { s.ctr with numC := s.ctr.numC + k, cost := s.ctr.cost + k } := by
  unfold ccycles; split <;> simp_all
@[simp] theorem charges_ctr (row : Cycles) (s : State) :
    (charges row s).ctr =
      { s.ctr with numI := s.ctr.numI + row.i, numC := s.ctr.numC + row.c, cost := s.ctr.cost + row.i + row.c } := by
  simp [charges]
@[simp] theorem setNz_cpsr (r : Word) (s : State) :
    (setNz r s).cpsr = { s.cpsr with n := r.getLsbD 31, z := r == 0#32 } := rfl
@[simp] theorem setFlags_cpsr (r : AluOut) (s : State) :
    (setFlags r s).cpsr = { s.cpsr with n := r.value.getLsbD 31, z := r.value == 0#32, c := r.c, v := r.v } := rfl
@[simp] theorem setNz64_cpsr (r : BitVec 64) (s : State) :
    (setNz64 r s).cpsr = { s.cpsr with n := r.getLsbD 63, z := r == 0#64 } := rfl
@[simp] theorem flagsOfWord_cpsr (w : Word) (s : State) :
    (flagsOfWord w s).cpsr =
      { s.cpsr with n := w.getLsbD 31, z := w.getLsbD 30, c := w.getLsbD 29, v := w.getLsbD 28 } := rfl
@[simp] theorem freeC_cpsr (s : State) : (freeC s).cpsr = { s.cpsr with c := Config.freeBit s.freeCount } := rfl
@[simp] theorem freeV_cpsr (s : State) : (freeV s).cpsr = { s.cpsr with v := Config.freeBit s.freeCount } := rfl
@[simp] theorem freeC_freeCount (s : State) : (freeC s).freeCount = s.freeCount + 1 := rfl
@[simp] theorem freeV_freeCount (s : State) : (freeV s).freeCount = s.freeCount + 1 := rfl
@[simp] theorem flush_valid (s : State) : (flush s).pipe.valid = false := rfl
@[simp] theorem flush_stream (s : State) : (flush s).pipe.lastFetch.valid = false := rfl
@[simp] theorem clearAborted_quiet (s : State) (h : s.collab.clearsAborted = true) :
    (clearAborted s).fault = { s.fault with aborted := none } := by simp [clearAborted, h]

end Sys2Proof.Machine
end

