-- ==== Sys2Proof/Laws/Registers.lean ====
section
/-! SUPPORT. Registers: the banks' view mapping (spec/10_state.md R24), read after write, and what reading a register
depends on. -/

namespace Sys2Proof.Machine

/-- A read after a write of the same physical register gives the value. -/
@[simp] theorem readPhys_writePhys_same (r : Regs) (p : PhysReg) (v : Word) : readPhys (writePhys r p v) p = v := by
  cases p <;> simp [readPhys, writePhys]

/-- A write of one physical register leaves every other. -/
theorem readPhys_writePhys_other (r : Regs) {p q : PhysReg} (v : Word) (h : q ≠ p) :
    readPhys (writePhys r p v) q = readPhys r q := by
  cases p <;> cases q <;> simp_all [readPhys, writePhys, Vector.getElem_set, Fin.ext_iff, eq_comm]

/-- Two register files that agree on every physical register are equal. -/
theorem regs_ext {r r' : Regs} (h : ∀ p, readPhys r p = readPhys r' p) : r = r' := by
  cases r; cases r'
  simp only [Regs.mk.injEq]
  refine ⟨?_, ?_, ?_, ?_, ?_⟩ <;> apply Vector.ext <;> intro i hi
  · exact h (.lo ⟨i, hi⟩)
  · exact h (.nf ⟨i, hi⟩)
  · exact h (.fiq ⟨i, hi⟩)
  · exact h (.sp ⟨i, hi⟩)
  · exact h (.lr ⟨i, hi⟩)

/-- r15 is no general register. -/
theorem physOf_pc (b : Fin 7) : physOf b 15#4 = none := by rfl

/-- r0 to r14 are general registers. -/
theorem physOf_isSome (b : Fin 7) {n : RegNum} (h : n ≠ 15#4) : (physOf b n).isSome := by
  have h2 : n.toNat ≠ 15 := fun e => h (BitVec.eq_of_toNat_eq e)
  have h3 := n.isLt
  unfold physOf
  split
  · rfl
  · split
    · rfl
    · split
      · rfl
      · split
        · rfl
        · omega

/-- The low registers are the same in every bank. -/
theorem physOf_low (b : Fin 7) (r : LoReg) : physOf b (low r) = some (.lo ⟨r.toNat, by have := r.isLt; omega⟩) := by
  have h : (low r).toNat = r.toNat := by
    have := r.isLt
    simp only [low, BitVec.toNat_setWidth]; omega
  have := r.isLt
  unfold physOf
  simp only [h]
  rw [dif_pos (by omega)]

/-- r13 of a bank. -/
@[simp] theorem physOf_sp (b : Fin 7) : physOf b spNum = some (.sp b) := rfl

/-- r14 of a bank. -/
@[simp] theorem physOf_lr (b : Fin 7) : physOf b lrNum = some (.lr b) := rfl

/-- Different register numbers of one bank are different physical registers (R24). -/
theorem physOf_inj (b : Fin 7) {m n : RegNum} {p : PhysReg} (hm : physOf b m = some p) (hn : physOf b n = some p) :
    m = n := by
  apply BitVec.eq_of_toNat_eq
  have h1 := m.isLt
  have h2 := n.isLt
  unfold physOf at hm hn
  split at hm <;> split at hn <;> (try split at hm) <;> (try split at hn) <;> (try split at hm) <;>
    (try split at hn) <;> (try split at hm) <;> (try split at hn) <;> (try split at hm) <;> (try split at hn) <;>
    simp_all <;> (subst hm; simp at hn) <;> omega

/-- Reading a bank's register depends on the registers, the pc and T alone. -/
theorem readBank_congr {s t : State} (hr : t.regs = s.regs) (hp : t.pc = s.pc) (ht : t.cpsr.t = s.cpsr.t) (b : Fin 7)
    (n : RegNum) : readBank t b n = readBank s b n := by
  simp [readBank, readPc, isz, hr, hp, ht]

/-- Reading a register depends on the registers, the pc, T and the mode alone. -/
theorem readReg_congr {s t : State} (hr : t.regs = s.regs) (hp : t.pc = s.pc) (hc : t.cpsr = s.cpsr) (n : RegNum) :
    readReg t n = readReg s n := by
  unfold readReg; rw [hc, readBank_congr hr hp (by rw [hc])]

/-- The registers after a write of a bank's register. -/
theorem writeBank_regs (s : State) (b : Fin 7) (n : RegNum) (v : Word) :
    (writeBank s b n v).regs = match physOf b n with | some p => writePhys s.regs p v | none => s.regs := by
  unfold writeBank; cases physOf b n <;> rfl

/-- `SetReg` then `GetReg` of one bank (R25). -/
theorem readBank_writeBank_same (s : State) (b : Fin 7) {n : RegNum} (h : n ≠ 15#4) (v : Word) :
    readBank (writeBank s b n v) b n = v := by
  obtain ⟨p, hp⟩ := Option.isSome_iff_exists.1 (physOf_isSome b h)
  simp [readBank, writeBank, hp]

/-- A write of another number of the same bank is not seen. -/
theorem readBank_writeBank_other (s : State) (b : Fin 7) {m n : RegNum} (h : n ≠ m) (v : Word) :
    readBank (writeBank s b m v) b n = readBank s b n := by
  unfold readBank writeBank
  cases hm : physOf b m with
  | none => rfl
  | some p =>
    cases hn : physOf b n with
    | none => rfl
    | some q =>
      refine readPhys_writePhys_other _ _ ?_
      rintro rfl
      exact h (physOf_inj b hn hm)

/-- Read after write, the active view. -/
theorem readReg_writeReg_same (s : State) {n : RegNum} (h : n ≠ 15#4) (v : Word) : readReg (writeReg s n v) n = v := by
  unfold readReg; rw [writeReg_cpsr]; exact readBank_writeBank_same s _ h v

/-- A write leaves the other registers of the active view. -/
theorem readReg_writeReg_other (s : State) {m n : RegNum} (h : n ≠ m) (v : Word) :
    readReg (writeReg s m v) n = readReg s n := by
  unfold readReg; rw [writeReg_cpsr]; exact readBank_writeBank_other s _ h v

/-- A write of r15 through the view writes nothing. -/
theorem writeReg_pc_num (s : State) (v : Word) : writeReg s 15#4 v = s := rfl

/-- What a write through the view leaves: every physical register but its own. -/
theorem readPhys_writeReg_other (s : State) (n : RegNum) (v : Word) {p : PhysReg}
    (h : physOf s.cpsr.m.bank n ≠ some p) : readPhys (writeReg s n v).regs p = readPhys s.regs p := by
  unfold writeReg
  rw [writeBank_regs]
  cases hn : physOf s.cpsr.m.bank n with
  | none => rfl
  | some q => exact readPhys_writePhys_other _ _ (fun e => h (by rw [hn, e]))

end Sys2Proof.Machine
end

