-- ==== Sys2Proof/Laws/Port.lean ====
section
/-! SUPPORT. The memory port and the collaborators: what an access can do at all, and what it does under a quiet
interface. -/

namespace Sys2Proof.Machine

/-- What no collaborator may change while it runs (spec/20_memory.md R72; spec/47_arm_coprocessor_swi_undefined.md R321). -/
structure CollabFrame (s t : State) : Prop where
  regs : t.regs = s.regs
  pc : t.pc = s.pc
  cpsr : t.cpsr = s.cpsr
  spsr : t.spsr = s.spsr
  inted : t.inted = s.inted
  lastInted : t.lastInted = s.lastInted
  pipe : t.pipe = s.pipe
  ctr : t.ctr = s.ctr
  acc : t.acc = s.acc
  coproc : t.coproc = s.coproc
  params : t.params = s.params
  freeCount : t.freeCount = s.freeCount
  reseted : t.fault.reseted = s.fault.reseted
  catchMask : t.dbg.catchMask = s.dbg.catchMask
  stepBudget : t.dbg.stepBudget = s.dbg.stepBudget
  halt : t.dbg.halt = s.dbg.halt
  clears : t.collab.clearsAborted = s.collab.clearsAborted
  callbacks : t.collab.callbacks = s.collab.callbacks
  breakpoints : t.collab.breakpoints = s.collab.breakpoints
  hook : t.collab.hook = s.collab.hook
  internal : t.collab.internal = s.collab.internal
  coprocCycle : t.collab.coprocCycle = s.collab.coprocCycle

theorem CollabFrame.refl (s : State) : CollabFrame s s := by constructor <;> rfl

theorem CollabFrame.trans {s t u : State} (h : CollabFrame s t) (k : CollabFrame t u) : CollabFrame s u := by
  constructor
  · exact k.regs.trans h.regs
  · exact k.pc.trans h.pc
  · exact k.cpsr.trans h.cpsr
  · exact k.spsr.trans h.spsr
  · exact k.inted.trans h.inted
  · exact k.lastInted.trans h.lastInted
  · exact k.pipe.trans h.pipe
  · exact k.ctr.trans h.ctr
  · exact k.acc.trans h.acc
  · exact k.coproc.trans h.coproc
  · exact k.params.trans h.params
  · exact k.freeCount.trans h.freeCount
  · exact k.reseted.trans h.reseted
  · exact k.catchMask.trans h.catchMask
  · exact k.stepBudget.trans h.stepBudget
  · exact k.halt.trans h.halt
  · exact k.clears.trans h.clears
  · exact k.callbacks.trans h.callbacks
  · exact k.breakpoints.trans h.breakpoints
  · exact k.hook.trans h.hook
  · exact k.internal.trans h.internal
  · exact k.coprocCycle.trans h.coprocCycle

/-- A fold of steps that keep a frame keeps it. -/
theorem CollabFrame.foldl {α : Type} (g : State → α → State) (h : ∀ s a, CollabFrame s (g s a)) (l : List α) (s : State) :
    CollabFrame s (l.foldl g s) := by
  induction l generalizing s with
  | nil => exact .refl s
  | cons a l ih => exact (h s a).trans (ih _)

theorem abortCall_frame (k : AbortKind) (a : Word) (s : State) : CollabFrame s (abortCall k a s) := by
  unfold abortCall; split <;> constructor <;> rfl

theorem perform_frame (s : State) (a : Action) : CollabFrame s (perform s a) := by cases a <;> constructor <;> rfl

theorem performMem_frame (k : AbortKind) (s : State) (a : MemAction) : CollabFrame s (performMem k s a) := by
  cases a with
  | act a => exact perform_frame s a
  | write => constructor <;> rfl
  | abort a => exact abortCall_frame k a s

theorem performIdle_frame (s : State) (a : IdleAction) : CollabFrame s (performIdle s a) := by
  cases a with
  | act a => exact perform_frame s a
  | write => constructor <;> rfl

theorem clearAborted_frame (s : State) : CollabFrame s (clearAborted s) := by
  unfold clearAborted; split <;> constructor <;> rfl

theorem touch_frame (c : Cls) (k : Access) (sz : Size) (a : Word) (s : State) : CollabFrame s (touch c k sz a s) := by
  have h0 : CollabFrame s { clearAborted s with collab := { (clearAborted s).collab with
      regions := (clearAborted s).collab.regions.map (Region.after c k sz a) } } :=
    (clearAborted_frame s).trans (by constructor <;> rfl)
  have h := h0.trans (CollabFrame.foldl (performMem k.abortKind) (performMem_frame _)
    ((met c k sz a s.collab.regions).flatMap fun r => r.reaction.before) _)
  unfold touch
  simp only []
  split
  · exact h.trans (abortCall_frame _ _ _)
  · exact h

theorem landStore_frame (k : Access) (sz : Size) (a : Word) (v : Option Word) (ms : List Region) (s : State) :
    CollabFrame s (landStore k sz a v ms s) := by constructor <;> simp

/-- An access can change nothing else at all. -/
theorem access_frame (c : Cls) (k : Access) (sz : Size) (a : Word) (v : Option Word) (s : State) :
    CollabFrame s (access c k sz a v s).2 :=
  ((touch_frame c k sz a s).trans (landStore_frame _ _ _ _ _ _)).trans (CollabFrame.foldl _ (performMem_frame _) _ _)

/-- The same but for the counters: what an access of the core can change. -/
structure AccessFrame (s t : State) : Prop where
  regs : t.regs = s.regs
  pc : t.pc = s.pc
  cpsr : t.cpsr = s.cpsr
  spsr : t.spsr = s.spsr
  inted : t.inted = s.inted
  lastInted : t.lastInted = s.lastInted
  pipe : t.pipe = s.pipe
  acc : t.acc = s.acc
  coproc : t.coproc = s.coproc
  params : t.params = s.params
  freeCount : t.freeCount = s.freeCount
  reseted : t.fault.reseted = s.fault.reseted
  catchMask : t.dbg.catchMask = s.dbg.catchMask
  stepBudget : t.dbg.stepBudget = s.dbg.stepBudget
  halt : t.dbg.halt = s.dbg.halt
  clears : t.collab.clearsAborted = s.collab.clearsAborted
  callbacks : t.collab.callbacks = s.collab.callbacks
  breakpoints : t.collab.breakpoints = s.collab.breakpoints
  hook : t.collab.hook = s.collab.hook

theorem CollabFrame.access {s t : State} (h : CollabFrame s t) : AccessFrame s t := by cases h; constructor <;> assumption

theorem AccessFrame.refl (s : State) : AccessFrame s s := (CollabFrame.refl s).access

theorem AccessFrame.trans {s t u : State} (h : AccessFrame s t) (k : AccessFrame t u) : AccessFrame s u := by
  constructor
  · exact k.regs.trans h.regs
  · exact k.pc.trans h.pc
  · exact k.cpsr.trans h.cpsr
  · exact k.spsr.trans h.spsr
  · exact k.inted.trans h.inted
  · exact k.lastInted.trans h.lastInted
  · exact k.pipe.trans h.pipe
  · exact k.acc.trans h.acc
  · exact k.coproc.trans h.coproc
  · exact k.params.trans h.params
  · exact k.freeCount.trans h.freeCount
  · exact k.reseted.trans h.reseted
  · exact k.catchMask.trans h.catchMask
  · exact k.stepBudget.trans h.stepBudget
  · exact k.halt.trans h.halt
  · exact k.clears.trans h.clears
  · exact k.callbacks.trans h.callbacks
  · exact k.breakpoints.trans h.breakpoints
  · exact k.hook.trans h.hook

theorem countAccess_frame (c : Cls) (k : Nat) (s : State) : AccessFrame s (countAccess c k s) := by
  cases c <;> constructor <;> rfl

/-- The cycles of a row, and what the interface does at their calls. -/
theorem charges_frame (row : Cycles) (s : State) : AccessFrame s (charges row s) := by
  have hi : ∀ s : State, AccessFrame s (internalCall s) := fun s =>
    AccessFrame.trans (by constructor <;> rfl) (CollabFrame.foldl performIdle performIdle_frame _ _).access
  have hc : ∀ s : State, AccessFrame s (coprocCycleCall s) := fun s =>
    AccessFrame.trans (by constructor <;> rfl) (CollabFrame.foldl performIdle performIdle_frame _ _).access
  have h1 : ∀ (k : Nat) (s : State), AccessFrame s (icycles k s) := by
    intro k s; unfold icycles; split
    · exact .refl s
    · exact AccessFrame.trans (by constructor <;> rfl) (hi _)
  have h2 : ∀ (k : Nat) (s : State), AccessFrame s (ccycles k s) := by
    intro k s; unfold ccycles; split
    · exact .refl s
    · exact AccessFrame.trans (by constructor <;> rfl) (hc _)
  exact (h1 _ _).trans (h2 _ _)

/-- A row with no cycles does nothing (R84). -/
@[simp] theorem charges_zero (s : State) : charges ⟨0, 0⟩ s = s := rfl

/-- When nothing is scripted, the cycles of a row are counted and nothing else happens (R84). -/
theorem charges_quiet (row : Cycles) {s : State} (hi : s.collab.internal = []) (hc : s.collab.coprocCycle = []) :
    charges row s = spend 0 0 row.i row.c s := by
  have e : ∀ x : Counters, { s with ctr := x, collab := { s.collab with internal := [] } } = { s with ctr := x } := by
    intro x; conv_rhs => rw [show s.collab = { s.collab with internal := [] } by rw [← hi]]
  have e2 : ∀ x : Counters, { s with ctr := x, collab := { s.collab with coprocCycle := [] } } = { s with ctr := x } := by
    intro x; conv_rhs => rw [show s.collab = { s.collab with coprocCycle := [] } by rw [← hc]]
  have h1 : icycles row.i s = spend 0 0 row.i 0 s := by
    unfold icycles; split
    · rename_i h; simp [h, spend, charge]
    · simp only [internalCall, hi, List.headD_nil, List.foldl_nil, List.tail_nil]
      rw [e]; simp [spend, charge]
  rw [charges, h1]
  unfold ccycles; split
  · rename_i h; simp [h, spend, charge]
  · simp only [coprocCycleCall, spend, hc, List.headD_nil, List.foldl_nil, List.tail_nil]
    rw [e2]; simp [charge, Nat.add_assoc]

/-- The state an access leaves, whether or not it aborted. -/
def Acc.state {α : Type} : Acc α → State
  | .ok _ s => s
  | .abort s => s

theorem checkAborted_state {α : Type} (v : α) (s : State) : (checkAborted v s).state = s := by
  unfold checkAborted; split <;> rfl

theorem memRead_frame (c : Cls) (sz : Size) (a : Word) (s : State) : AccessFrame s (memRead c sz a s).state := by
  simp only [memRead, checkAborted_state]
  exact (countAccess_frame c 1 s).trans (access_frame ..).access

theorem memWrite_frame (c : Cls) (sz : Size) (a v : Word) (s : State) : AccessFrame s (memWrite c sz a v s).state := by
  simp only [memWrite, checkAborted_state]
  exact (countAccess_frame c 1 s).trans (access_frame ..).access

theorem memSwap_frame (sz : Size) (a v : Word) (s : State) : AccessFrame s (memSwap sz a v s).state := by
  simp only [memSwap, checkAborted_state]
  exact (countAccess_frame .n 2 s).trans (access_frame ..).access

/-- An access that goes on leaves `Aborted` clear, one that aborts leaves it set (R80). -/
theorem checkAborted_ok {α : Type} {v w : α} {s t : State} (h : checkAborted v s = .ok w t) :
    w = v ∧ t = s ∧ s.fault.aborted = none := by
  unfold checkAborted at h
  split at h
  · rename_i hn; cases h; exact ⟨rfl, rfl, hn⟩
  · cases h

theorem checkAborted_abort {α : Type} {v : α} {s t : State} (h : checkAborted v s = .abort t) :
    t = s ∧ s.fault.aborted ≠ none := by
  unfold checkAborted at h
  split at h
  · cases h
  · rename_i hn; cases h; exact ⟨rfl, hn⟩

theorem readWords_frame (n : Nat) (c : Cls) (a : Word) (s : State) : AccessFrame s (readWords n c a s).state := by
  induction n generalizing c a s with
  | zero => exact .refl s
  | succ n ih =>
    have h1 := memRead_frame c .word a s
    unfold readWords
    cases h : memRead c .word a s with
    | abort s1 => rw [h] at h1; exact h1
    | ok w s1 =>
      rw [h] at h1
      have h2 := ih .s (a + 4#32) s1
      simp only []
      cases h' : readWords n .s (a + 4#32) s1 with
      | abort s2 => rw [h'] at h2; exact h1.trans h2
      | ok ws s2 => rw [h'] at h2; exact h1.trans h2

theorem writeWords_frame (ws : List Word) (c : Cls) (a : Word) (s : State) :
    AccessFrame s (writeWords ws c a s).state := by
  induction ws generalizing c a s with
  | nil => exact .refl s
  | cons w ws ih =>
    have h1 := memWrite_frame c .word a w s
    unfold writeWords
    cases h : memWrite c .word a w s with
    | abort s1 => rw [h] at h1; exact h1
    | ok u s1 => rw [h] at h1; exact h1.trans (ih .s (a + 4#32) s1)

/-- A multi-word read gives as many words as it was asked for. -/
theorem readWords_length {n : Nat} {c : Cls} {a : Word} {s t : State} {ws : List Word}
    (h : readWords n c a s = .ok ws t) : ws.length = n := by
  induction n generalizing c a s ws with
  | zero => unfold readWords at h; cases h; rfl
  | succ n ih =>
    unfold readWords at h
    split at h
    · cases h
    · split at h
      · cases h
      · rename_i h2; cases h; simp [ih h2]

/-! ## Under a quiet interface -/

/-- Quietness depends on the collaborators alone. -/
theorem QuietAt.congr {k : Access} {sz : Size} {a : Word} {s t : State} (h : QuietAt k sz a s) (e : t.collab = s.collab) :
    QuietAt k sz a t := by unfold QuietAt; rw [e]; exact h

/-- A quiet access meets no region. -/
theorem QuietAt.met {k : Access} {sz : Size} {a : Word} {s : State} (h : QuietAt k sz a s) (c : Cls) :
    ∀ r ∈ s.collab.regions, r.hit c k sz a = false := by
  intro r hm
  have := List.all_eq_true.1 h.2 r hm
  simp only [Bool.not_eq_true', Bool.and_eq_false_iff] at this
  simp only [Region.hit, Bool.and_eq_false_iff]
  tauto

/-- A quiet access clears `Aborted`, moves the data, and nothing else. -/
theorem access_quiet {c : Cls} {k : Access} {sz : Size} {a : Word} {v : Option Word} {s : State} (h : QuietAt k sz a s) :
    access c k sz a v s = (portLoad s.mem sz a,
      { s with fault := clean s.fault, mem := (v.map (portStore s.mem sz a)).getD s.mem }) := by
  have hn := h.met c
  have h1 : s.collab.regions.map (Region.after c k sz a) = s.collab.regions := by
    refine (List.map_congr_left fun r hm => ?_).trans (List.map_id _)
    simp [Region.after, hn r hm]
  have h2 : met c k sz a s.collab.regions = [] := by
    unfold Machine.met; rw [List.filter_eq_nil_iff]; intro r hm; simp [hn r hm]
  have ht : touch c k sz a s = { s with fault := clean s.fault } := by
    simp only [touch, h2, clearAborted_collab, h1, List.flatMap_nil, List.foldl_nil, List.any_nil, Bool.false_eq_true, if_false]
    rw [clearAborted, if_pos h.1]; rfl
  simp only [access, ht, h2, List.flatMap_nil, List.foldl_nil, answered, List.findSome?_nil]
  cases v <;> simp [landStore]

theorem memRead_quiet {c : Cls} {sz : Size} {a : Word} {s : State} (h : QuietAt .read sz a s) :
    memRead c sz a s = .ok (portLoad s.mem sz a) { countAccess c 1 s with fault := clean s.fault } := by
  have hq : QuietAt .read sz a (countAccess c 1 s) := h.congr (by simp)
  simp [memRead, access_quiet hq, checkAborted, clean]

theorem memWrite_quiet {c : Cls} {sz : Size} {a v : Word} {s : State} (h : QuietAt .write sz a s) :
    memWrite c sz a v s =
      .ok () { countAccess c 1 s with fault := clean s.fault, mem := portStore s.mem sz a v } := by
  have hq : QuietAt .write sz a (countAccess c 1 s) := h.congr (by simp)
  simp [memWrite, access_quiet hq, checkAborted, clean]

theorem memSwap_quiet {sz : Size} {a v : Word} {s : State} (h : QuietAt .swap sz a s) :
    memSwap sz a v s =
      .ok (portLoad s.mem sz a) { countAccess .n 2 s with fault := clean s.fault, mem := portStore s.mem sz a v } := by
  have hq : QuietAt .swap sz a (countAccess .n 2 s) := h.congr (by simp)
  simp [memSwap, access_quiet hq, checkAborted, clean]

/-- A quiet fetch (spec/40_fetch_decode_dispatch.md R165). -/
theorem fetch_quiet {a : Word} {s : State} (h : QuietAt .fetch (fetchSize s) a s) :
    fetch a s = ({ word := portLoad s.mem (fetchSize s) a, pabort := false },
      { countAccess (fetchClass a s.pipe.lastFetch) 1 s with
        fault := clean s.fault
        pipe := { s.pipe with lastFetch := { valid := true, addr := a, size := isz s } } }) := by
  have hq : QuietAt .fetch (fetchSize s) a (countAccess (fetchClass a s.pipe.lastFetch) 1 s) := h.congr (by simp)
  simp [fetch, access_quiet hq, clean]

/-- A fetch that continues the stream is sequential (spec/10_state.md R48). -/
theorem fetchClass_next (a n : Word) : fetchClass (a + n) { valid := true, addr := a, size := n } = .s := by
  simp [fetchClass]

/-- After a flush the fetch is non-sequential. -/
theorem fetchClass_flushed (a : Word) (l : LastFetch) (h : l.valid = false) : fetchClass a l = .n := by
  simp [fetchClass, h]

/-- A quiet refill: the slots are filled from the pc on, one N and one S cycle are charged (R170). -/
theorem refill_quiet {s : State} (h1 : QuietAt .fetch (fetchSize s) s.pc s)
    (h2 : QuietAt .fetch (fetchSize s) (s.pc + isz s) s) :
    refill s = { s with
      fault := clean s.fault
      ctr := charge 1 1 0 0 s.ctr
      pipe := {
        decoded := { word := portLoad s.mem (fetchSize s) s.pc, pabort := false }
        loaded := { word := portLoad s.mem (fetchSize s) (s.pc + isz s), pabort := false }
        valid := true
        lastFetch := { valid := true, addr := s.pc + isz s, size := isz s } } } := by
  have q1 : QuietAt .fetch (fetchSize (flush s)) s.pc (flush s) := h1
  unfold refill
  rw [fetch_quiet q1]
  simp only []
  rw [fetch_quiet (s := { countAccess _ 1 (flush s) with fault := _, pipe := _ })
    (by refine QuietAt.congr (s := s) ?_ (by simp); exact h2)]
  rw [fetchClass_flushed _ _ (flush_stream s)]
  have e : isz (flush s) = isz s := rfl
  have e2 : fetchSize (flush s) = fetchSize s := rfl
  simp only [e, e2, fetchClass_next]
  simp [isz, fetchSize, countAccess, flush, charge, clean, Nat.add_assoc]
  exact ⟨rfl, rfl⟩

/-- Words read under a quiet interface, the first access of class `c` and the others S. -/
theorem readWords_quiet {n : Nat} {c : Cls} {a : Word} {s : State} (h : QuietWords .read (n + 1) a s) :
    readWords (n + 1) c a s =
      .ok (wordsAt s.mem (n + 1) a) { countAccess .s n (countAccess c 1 s) with fault := clean s.fault } := by
  induction n generalizing c a s with
  | zero =>
    have h0 := h 0 (by omega)
    simp only [Nat.mul_zero, BitVec.add_zero] at h0
    rw [show 0 + 1 = 1 from rfl, readWords, memRead_quiet h0]
    simp [readWords, wordsAt, countAccess]
  | succ n ih =>
    have h0 := h 0 (by omega)
    simp only [Nat.mul_zero, BitVec.add_zero] at h0
    have hs : QuietWords .read (n + 1) (a + 4#32) { countAccess c 1 s with fault := clean s.fault } := by
      intro i hi
      have := h (i + 1) (by omega)
      rw [Nat.mul_add, BitVec.ofNat_add, BitVec.add_comm (BitVec.ofNat 32 (4 * i)), ← BitVec.add_assoc] at this
      exact this.congr (by simp)
    rw [readWords, memRead_quiet h0]
    simp only [ih hs]
    have e : wordsAt s.mem (n + 1 + 1) a = portLoad s.mem .word a :: wordsAt s.mem (n + 1) (a + 4#32) := by
      unfold wordsAt
      rw [List.range_succ_eq_map]
      simp only [List.map_cons, List.map_map, Nat.mul_zero, BitVec.add_zero, List.cons.injEq,
        true_and]
      refine List.map_congr_left fun i _ => ?_
      simp only [Function.comp_apply, Nat.succ_eq_add_one]
      rw [Nat.mul_add, BitVec.ofNat_add, BitVec.add_comm (BitVec.ofNat 32 (4 * i)), ← BitVec.add_assoc]
    rw [e]
    cases c <;> simp [countAccess, clean, Nat.add_assoc, Nat.add_comm, Nat.add_left_comm]

/-- The memory after consecutive words are stored from `a` on. -/
def storeAll : List Word → Word → Memory → Memory
  | [], _, m => m
  | w :: ws, a, m => storeAll ws (a + 4#32) (portStore m .word a w)

/-- Words written under a quiet interface. -/
theorem writeWords_quiet {w : Word} {ws : List Word} {c : Cls} {a : Word} {s : State}
    (h : QuietWords .write (ws.length + 1) a s) :
    writeWords (w :: ws) c a s =
      .ok () { countAccess .s ws.length (countAccess c 1 s) with
        fault := clean s.fault, mem := storeAll (w :: ws) a s.mem } := by
  induction ws generalizing w c a s with
  | nil =>
    have h0 := h 0 (by simp)
    simp only [Nat.mul_zero, BitVec.add_zero] at h0
    rw [writeWords, memWrite_quiet h0]
    simp [writeWords, storeAll, countAccess]
  | cons w2 ws ih =>
    have h0 := h 0 (by simp)
    simp only [Nat.mul_zero, BitVec.add_zero] at h0
    have hs : QuietWords .write (ws.length + 1) (a + 4#32)
        { countAccess c 1 s with fault := clean s.fault, mem := portStore s.mem .word a w } := by
      intro i hi
      have := h (i + 1) (by simp; omega)
      rw [Nat.mul_add, BitVec.ofNat_add, BitVec.add_comm (BitVec.ofNat 32 (4 * i)), ← BitVec.add_assoc] at this
      exact this.congr (by simp)
    rw [writeWords, memWrite_quiet h0]
    simp only [ih hs]
    cases c <;> simp [countAccess, clean, storeAll, Nat.add_assoc, Nat.add_comm, Nat.add_left_comm] <;> omega

/-- Where the bytes of the i-th word of a block lie. -/
theorem accessBase_block (a : Word) (i : Nat) :
    (accessBase .word (a + BitVec.ofNat 32 (4 * i))).toNat = 4 * ((a.toNat + 4 * i) % 4294967296 / 4) := by
  rw [accessBase_word_toNat, BitVec.toNat_add, BitVec.toNat_ofNat]
  simp only [Nat.add_mod_mod, Nat.reducePow]

/-- Storing words keeps the canonical form. -/
theorem wf_storeAll {m : Memory} (hw : m.wf = true) (ws : List Word) (a : Word) : (storeAll ws a m).wf = true := by
  induction ws generalizing m a with
  | nil => exact hw
  | cons w ws ih => exact ih (wf_portStore hw _ _ _) _

/-- A byte in none of the words stored is as before. -/
theorem memGet_storeAll_other {m : Memory} (hw : m.wf = true) {ws : List Word} {a : Word} {x : Nat}
    (h : ∀ i, i < ws.length → ¬ ((accessBase .word (a + BitVec.ofNat 32 (4 * i))).toNat ≤ x ∧
      x < (accessBase .word (a + BitVec.ofNat 32 (4 * i))).toNat + 4)) :
    memGet (storeAll ws a m) x = memGet m x := by
  induction ws generalizing m a with
  | nil => rfl
  | cons w ws ih =>
    rw [storeAll, ih (wf_portStore hw _ _ _)]
    · have h0 := h 0 (by simp)
      rw [Nat.mul_zero, BitVec.add_zero] at h0
      rw [memGet_portStore hw _ _ _ (by simp)]
      simp only [Size.bytes, h0, if_false]
    · intro i hi
      have := h (i + 1) (by simp; omega)
      rw [Nat.mul_add, BitVec.ofNat_add, BitVec.add_comm (BitVec.ofNat 32 (4 * i)), ← BitVec.add_assoc] at this
      exact this

/-- The bytes of each word stored are the value's, the lowest word first. -/
theorem memGet_storeAll_word {m : Memory} (hw : m.wf = true) {ws : List Word} (hl : ws.length ≤ 16) {a v : Word} {i k : Nat}
    (hi : ws[i]? = some v) (hk : k < 4) :
    memGet (storeAll ws a m) ((accessBase .word (a + BitVec.ofNat 32 (4 * i))).toNat + k) = v.extractLsb' (8 * k) 8 := by
  induction ws generalizing m a i with
  | nil => simp at hi
  | cons w ws ih =>
    rw [storeAll]
    cases i with
    | zero =>
      simp only [List.getElem?_cons_zero, Option.some.injEq] at hi
      subst hi
      have e : a + BitVec.ofNat 32 (4 * 0) = a := by simp
      rw [e, memGet_storeAll_other (wf_portStore hw _ _ _), memGet_portStore hw _ _ _ (by simp)]
      · have h1 : (accessBase .word a).toNat ≤ (accessBase .word a).toNat + k ∧
            (accessBase .word a).toNat + k < (accessBase .word a).toNat + 4 := by omega
        simp only [Size.bytes, h1, and_self, if_true, Nat.add_sub_cancel_left]
      · intro j hj
        simp only [List.length_cons] at hl
        have h1 := accessBase_block (a + 4#32) j
        have h2 := accessBase_word_toNat a
        have h3 : (a + 4#32).toNat = (a.toNat + 4) % 4294967296 := by rw [BitVec.toNat_add]; rfl
        have := a.isLt
        omega
    | succ i =>
      simp only [List.getElem?_cons_succ] at hi
      have := ih (m := portStore m .word a w) (wf_portStore hw _ _ _) (by simp at hl; omega) (a := a + 4#32) hi
      rw [Nat.mul_add, BitVec.ofNat_add, BitVec.add_comm (BitVec.ofNat 32 (4 * i)), ← BitVec.add_assoc]
      exact this

/-- A block of at most 16 words, stored. -/
theorem storeAll_stored {s t : State} (hw : s.mem.wf = true) {ws : List Word} (hl : ws.length ≤ 16) {a : Word}
    (h : t.mem = storeAll ws a s.mem) : StoredWords a ws s t := by
  refine ⟨fun i v hi k hk => ?_, fun x hx => ?_⟩
  · rw [h]; exact memGet_storeAll_word hw hl hi hk
  · rw [h]; exact memGet_storeAll_other hw hx

/-! ## Under an interface that aborts -/

/-- Aborting depends on the collaborators alone. -/
theorem AbortsAt.congr {c : Cls} {k : Access} {sz : Size} {a : Word} {s t : State} (h : AbortsAt c k sz a s)
    (e : t.collab = s.collab) : AbortsAt c k sz a t := by unfold AbortsAt; rw [e]; exact h

/-- A test of the regions met is a test of those hit. -/
theorem any_met {c : Cls} {k : Access} {sz : Size} {a : Word} {rs : List Region} {p : Region → Bool} :
    (met c k sz a rs).any p = rs.any fun r => r.hit c k sz a && p r := by simp [Machine.met, List.any_filter]

/-- Regions without a script are as before after an access. -/
theorem regions_after {c : Cls} {k : Access} {sz : Size} {a : Word} {rs : List Region}
    (h : rs.all (fun r => r.script.isEmpty) = true) : rs.map (Region.after c k sz a) = rs := by
  refine (List.map_congr_left fun r hm => ?_).trans (List.map_id _)
  have := List.all_eq_true.1 h r hm
  simp only [List.isEmpty_iff] at this
  unfold Region.after; split
  · cases r; simp_all
  · rfl

/-- An access that aborts sets the fault mark and its address, stores nothing, and does nothing else. -/
theorem access_aborts {c : Cls} {k : Access} {sz : Size} {a : Word} {v : Option Word} {s : State} (h : AbortsAt c k sz a s)
    (hv : k = .read ∨ k = .fetch → v = none) :
    (access c k sz a v s).2 = { s with fault := { s.fault with aborted := some k.abortKind, abortAddr := a } } := by
  obtain ⟨h1, h2, h3⟩ := h
  have hs : ∀ r ∈ met c k sz a s.collab.regions, r.script = [] := by
    intro r hm
    have := List.all_eq_true.1 h2 r (List.mem_of_mem_filter hm)
    simpa using this
  have hb : ((met c k sz a s.collab.regions).flatMap fun r => r.reaction.before) = [] := by
    rw [List.flatMap_eq_nil_iff]; intro r hm; simp [Region.reaction, hs r hm]
  have ha : ((met c k sz a s.collab.regions).flatMap fun r => r.reaction.after) = [] := by
    rw [List.flatMap_eq_nil_iff]; intro r hm; simp [Region.reaction, hs r hm]
  have hab : (met c k sz a s.collab.regions).any Region.aborts = true := by
    rw [any_met, List.any_eq_true] at *
    obtain ⟨r, hm, hr⟩ := h3
    exact ⟨r, hm, by simp at hr ⊢; exact hr.1⟩
  have ht : touch c k sz a s = { s with fault := { s.fault with aborted := some k.abortKind, abortAddr := a } } := by
    simp only [touch, hb, hab, clearAborted_collab, regions_after h2, List.foldl_nil, if_true]
    rw [clearAborted, if_pos h1]; simp [abortCall]
  unfold access
  simp only [ht, ha, List.foldl_nil]
  cases v with
  | none => rfl
  | some v =>
    have hbl : (met c k sz a s.collab.regions).any (Region.blocks k) = true := by
      rw [any_met, List.any_eq_true] at *
      obtain ⟨r, hm, hr⟩ := h3
      have : k ≠ .read ∧ k ≠ .fetch := by constructor <;> (intro e; have := hv (by tauto); cases this)
      refine ⟨r, hm, ?_⟩
      simp at hr ⊢
      exact ⟨hr.1.1, by tauto⟩
    simp [landStore, hbl]

theorem memRead_aborts {c : Cls} {sz : Size} {a : Word} {s : State} (h : AbortsAt c .read sz a s) :
    memRead c sz a s =
      .abort { countAccess c 1 s with fault := { s.fault with aborted := some .data, abortAddr := a } } := by
  have e := access_aborts (v := none) (h.congr (t := countAccess c 1 s) (by simp)) (by simp)
  simp [memRead, e, checkAborted, Access.abortKind]

theorem memWrite_aborts {c : Cls} {sz : Size} {a v : Word} {s : State} (h : AbortsAt c .write sz a s) :
    memWrite c sz a v s =
      .abort { countAccess c 1 s with fault := { s.fault with aborted := some .data, abortAddr := a } } := by
  have e := access_aborts (v := some v) (h.congr (t := countAccess c 1 s) (by simp)) (by simp)
  simp [memWrite, e, checkAborted, Access.abortKind]

theorem memSwap_aborts {sz : Size} {a v : Word} {s : State} (h : AbortsAt .n .swap sz a s) :
    memSwap sz a v s =
      .abort { countAccess .n 2 s with fault := { s.fault with aborted := some .data, abortAddr := a } } := by
  have e := access_aborts (v := some v) (h.congr (t := countAccess .n 2 s) (by simp)) (by simp)
  simp [memSwap, e, checkAborted, Access.abortKind]

/-- A fetch that aborts marks its slot and raises nothing (spec/40_fetch_decode_dispatch.md R165). -/
theorem fetch_aborts {a : Word} {s : State} (h : AbortsAt (fetchClass a s.pipe.lastFetch) .fetch (fetchSize s) a s) :
    (fetch a s).1.pabort = true ∧ (fetch a s).2 = { countAccess (fetchClass a s.pipe.lastFetch) 1 s with
      fault := { s.fault with aborted := some .prefetch, abortAddr := a }
      pipe := { s.pipe with lastFetch := { valid := true, addr := a, size := isz s } } } := by
  have e := access_aborts (v := none) (h.congr (t := countAccess (fetchClass a s.pipe.lastFetch) 1 s) (by simp)) (by simp)
  refine ⟨by simp [fetch, e], ?_⟩
  simp only [fetch, e]
  simp [Access.abortKind]

end Sys2Proof.Machine
end

