-- ==== Sys2Proof/Laws/Blocks.lean ====
section
/-! SUPPORT. Register lists and the words of a block transfer (spec/46_arm_block_transfer.md R310): which word is whose, and
what the write of the loaded words leaves. -/

namespace Sys2Proof.Machine

/-! ### Lists -/

theorem listRegs_length {n : Nat} (list : BitVec n) : (listRegs list).length = countBelow list n := by
  simp [listRegs, countBelow, List.countP_eq_length_filter]

theorem countBelow_succ {n : Nat} (list : BitVec n) (r : Nat) :
    countBelow list (r + 1) = countBelow list r + if list.getLsbD r then 1 else 0 := by
  simp [countBelow, List.range_succ, List.countP_append, List.countP_cons]

/-- The first `k` numbers that a predicate picks, by how many it picks below each. -/
theorem filter_range_get (p : Nat → Bool) {k r : Nat} (hr : r < k) (hp : p r = true) :
    ((List.range k).filter p)[(List.range r).countP p]? = some r := by
  induction k with
  | zero => omega
  | succ k ih =>
    rw [List.range_succ, List.filter_append]
    by_cases h : r < k
    · have h1 := ih h
      rw [List.getElem?_append_left (List.getElem?_eq_some_iff.1 h1).1]
      exact h1
    · have e : r = k := by omega
      subst e
      rw [List.countP_eq_length_filter, List.getElem?_append_right (Nat.le_refl _)]
      simp [hp]

/-- The place of a register in its list is the number of registers below it. -/
theorem listRegs_get {n : Nat} {list : BitVec n} {r : Nat} (h : list.getLsbD r = true) :
    (listRegs list)[countBelow list r]? = some (BitVec.ofNat 4 r) := by
  have hr : r < n := BitVec.lt_of_getLsbD h
  simp only [listRegs, countBelow, List.getElem?_map]
  rw [filter_range_get (fun i => list.getLsbD i) hr h]
  rfl

theorem mem_listRegs {n : Nat} (hn : n ≤ 16) (list : BitVec n) (r : RegNum) :
    r ∈ listRegs list ↔ list.getLsbD r.toNat = true := by
  simp only [listRegs, List.mem_map, List.mem_filter, List.mem_range]
  constructor
  · rintro ⟨i, ⟨hi, hb⟩, rfl⟩
    rw [BitVec.toNat_ofNat, Nat.mod_eq_of_lt (by omega)]
    exact hb
  · intro h
    exact ⟨r.toNat, ⟨BitVec.lt_of_getLsbD h, h⟩, by simp⟩

theorem listRegs_nodup {n : Nat} (hn : n ≤ 16) (list : BitVec n) : (listRegs list).Nodup := by
  unfold listRegs
  refine List.Nodup.map_on ?_ (List.nodup_range.filter _)
  intro a ha b hb h
  have h1 := List.mem_range.1 (List.mem_filter.1 ha).1
  have h2 := List.mem_range.1 (List.mem_filter.1 hb).1
  have h3 := congrArg BitVec.toNat h
  simp only [BitVec.toNat_ofNat] at h3
  omega

theorem wordsAt_get (m : Memory) {n i : Nat} (a : Word) (h : i < n) :
    (wordsAt m n a)[i]? = some (portLoad m .word (a + BitVec.ofNat 32 (4 * i))) := by
  simp [wordsAt, h]

/-! ### Writing the loaded words -/

/-- Only the registers change. -/
theorem writeLoaded_eq (rs : List RegNum) (ws : List Word) (s : State) :
    writeLoaded rs ws s = { s with regs := (writeLoaded rs ws s).regs } := by
  induction rs generalizing ws s with
  | nil => rfl
  | cons r rs ih =>
    cases ws with
    | nil => rfl
    | cons w ws =>
      have h : writeReg s r w = { s with regs := (writeReg s r w).regs } := by
        unfold writeReg writeBank; split <;> rfl
      simp only [writeLoaded]
      rw [ih, h]

theorem writeLoaded_cpsr (rs : List RegNum) (ws : List Word) (s : State) : (writeLoaded rs ws s).cpsr = s.cpsr := by
  rw [writeLoaded_eq]

/-- A register outside the list keeps its value. -/
theorem readReg_writeLoaded_other {rs : List RegNum} {ws : List Word} {s : State} {n : RegNum} (h : n ∉ rs) :
    readReg (writeLoaded rs ws s) n = readReg s n := by
  induction rs generalizing ws s with
  | nil => rfl
  | cons r rs ih =>
    cases ws with
    | nil => rfl
    | cons w ws =>
      rw [List.mem_cons, not_or] at h
      simp only [writeLoaded]
      rw [ih h.2, readReg_writeReg_other _ h.1]

/-- A listed register takes the word of its place. -/
theorem readReg_writeLoaded_get {rs : List RegNum} {ws : List Word} {s : State} {n : RegNum} {i : Nat} {w : Word}
    (hd : rs.Nodup) (hn : n ≠ 15#4) (hr : rs[i]? = some n) (hw : ws[i]? = some w) :
    readReg (writeLoaded rs ws s) n = w := by
  induction rs generalizing ws s i with
  | nil => simp at hr
  | cons r rs ih =>
    cases ws with
    | nil => simp at hw
    | cons v ws =>
      rw [List.nodup_cons] at hd
      simp only [writeLoaded]
      cases i with
      | zero =>
        simp only [List.getElem?_cons_zero, Option.some.injEq] at hr hw
        subst hr hw
        rw [readReg_writeLoaded_other hd.1, readReg_writeReg_same _ hn]
      | succ i =>
        simp only [List.getElem?_cons_succ] at hr hw
        exact ih hd.2 hr hw

/-- A physical register that is none of the active view's keeps its value. -/
theorem readPhys_writeLoaded_other {rs : List RegNum} {ws : List Word} {s : State} {p : PhysReg}
    (h : ∀ r, physOf s.cpsr.m.bank r ≠ some p) : readPhys (writeLoaded rs ws s).regs p = readPhys s.regs p := by
  induction rs generalizing ws s with
  | nil => rfl
  | cons r rs ih =>
    cases ws with
    | nil => rfl
    | cons w ws =>
      have hc : (writeReg s r w).cpsr = s.cpsr := by unfold writeReg writeBank; split <;> rfl
      simp only [writeLoaded]
      rw [ih (by rw [hc]; exact h), readPhys_writeReg_other _ _ _ (h r)]

end Sys2Proof.Machine
end

