-- ==== Sys2Proof/Laws/Control.lean ====
section
/-! SUPPORT. The frame of an instruction: its condition and its form, the plain advance, the pc write, and the adder read as
exact sums (spec/41_shifter_alu_flags.md R205; spec/40_fetch_decode_dispatch.md R175). -/

namespace Sys2Proof.Machine

/-! ### Conditions, forms, the advance -/

/-- A guarded meaning whose condition passes and whose form has a meaning is its body. -/
theorem guarded_pass {c : Cond} {ch : Option Restriction} {body : State → Out} {s : State}
    (h : conditionPassed c s.cpsr = true) (hc : ch = none) : guarded c ch body s = body s := by
  simp [guarded, h, hc]

/-- A guarded meaning whose condition fails only advances (R175). -/
theorem guarded_fail {c : Cond} {ch : Option Restriction} {body : State → Out} {s : State}
    (h : conditionPassed c s.cpsr = false) : guarded c ch body s = advance s := by
  simp [guarded, h]

/-- A guarded meaning whose form has none is refused by that form's name. -/
theorem guarded_stop {c : Cond} {ch : Option Restriction} {r : Restriction} {body : State → Out} {s : State}
    (h : conditionPassed c s.cpsr = true) (hc : ch = some r) : guarded c ch body s = .refused (.form r) := by
  simp [guarded, h, hc]

/-- What a guarded meaning that answers a next state did. -/
theorem guarded_cases {c : Cond} {ch : Option Restriction} {body : State → Out} {s t : State}
    (h : guarded c ch body s = .next t) :
    (conditionPassed c s.cpsr = false ∧ advance s = .next t) ∨
      (conditionPassed c s.cpsr = true ∧ ch = none ∧ body s = .next t) := by
  unfold guarded at h
  split at h
  · rename_i hp
    cases ch with
    | none => exact .inr ⟨hp, rfl, h⟩
    | some r => cases h
  · rename_i hp
    exact .inl ⟨by simpa using hp, h⟩

/-- What a checked meaning that answers a next state did. -/
theorem checked_cases {ch : Option Restriction} {body : State → Out} {s t : State} (h : checked ch body s = .next t) :
    ch = none ∧ body s = .next t := by
  unfold checked at h
  cases ch with
  | none => exact ⟨rfl, h⟩
  | some r => cases h

/-- A checked meaning whose form has a meaning is its body. -/
theorem checked_pass {ch : Option Restriction} {body : State → Out} {s : State} (hc : ch = none) :
    checked ch body s = body s := by simp [checked, hc]

/-- The plain advance (spec/10_state.md R29). -/
theorem advance_next {s : State} (h : CanAdvance s) : advance s = .next (forward s) := by
  unfold CanAdvance at h
  simp [advance, forward, h]

/-- An advance that answers a next state only moves the pc. -/
theorem advance_cases {s t : State} (h : advance s = .next t) : t = forward s := by
  unfold advance at h
  split at h <;> cases h
  rfl

/-- The advance depends on the pc and T alone. -/
theorem CanAdvance.congr {s t : State} (h : CanAdvance s) (hp : t.pc = s.pc) (ht : t.cpsr.t = s.cpsr.t) : CanAdvance t := by
  unfold CanAdvance isz at *
  rw [hp, ht]; exact h

/-- A write of an aligned pc. -/
theorem jump_eq (v : Word) (s : State) :
    jump v s = if aligned s.cpsr.t v then .next (branchTo v s) else .refused .misalignedPc := rfl

/-- A pc write that answers a next state is a branch. -/
theorem jump_cases {v : Word} {s t : State} (h : jump v s = .next t) : aligned s.cpsr.t v = true ∧ t = branchTo v s := by
  unfold jump at h
  split at h
  · rename_i ha; cases h; exact ⟨ha, rfl⟩
  · cases h

/-- Setting the four flags, in the terms of the statements. -/
theorem setFlags_eq (r : AluOut) (s : State) : setFlags r s = withFlags true r.value r.c r.v s := by
  simp [setFlags, withFlags, BitVec.msb_eq_getLsbD_last, beq_eq_decide]

/-- Setting N and Z alone. -/
theorem setNz_eq (r : Word) (s : State) : setNz r s = withFlags true r s.cpsr.c s.cpsr.v s := by
  simp [setNz, withFlags, BitVec.msb_eq_getLsbD_last, beq_eq_decide]

/-! ### The adder -/

/-- The adder as exact sums: the carry and the overflow (R205). -/
theorem addWithCarry_add (a b : Word) (c : Bool) :
    addWithCarry a b c = {
      value := a + b + BitVec.ofNat 32 c.toNat
      c := decide (4294967296 ≤ a.toNat + b.toNat + c.toNat)
      v := overflows (a.toInt + b.toInt + c.toNat) } := by
  have hv : BitVec.ofNat 32 (a.toNat + b.toNat + c.toNat) = a + b + BitVec.ofNat 32 c.toNat := by
    apply BitVec.eq_of_toNat_eq; simp [BitVec.toNat_add]
  have h1 := a.isLt
  have h2 := b.isLt
  have hc : c.toNat ≤ 1 := by cases c <;> simp
  simp only [addWithCarry, hv, AluOut.mk.injEq, true_and]
  rw [← hv]
  simp only [overflows, BitVec.toInt_eq_toNat_cond, BitVec.toNat_ofNat, decide_eq_decide]
  have hm := Nat.mod_lt (a.toNat + b.toNat + c.toNat) (show 0 < 2 ^ 32 by decide)
  have hd := Nat.div_add_mod (a.toNat + b.toNat + c.toNat) (2 ^ 32)
  have hq : (a.toNat + b.toNat + c.toNat) / 2 ^ 32 ≤ 1 := by omega
  generalize (a.toNat + b.toNat + c.toNat) % 2 ^ 32 = m at *
  generalize (a.toNat + b.toNat + c.toNat) / 2 ^ 32 = q at *
  norm_num at *
  split <;> split <;> split <;> omega

/-- Subtraction through the adder: C is NOT borrow, V the exact signed difference out of range (R205). -/
theorem addWithCarry_sub (a b : Word) (c : Bool) :
    addWithCarry a (~~~b) c = {
      value := a - b - BitVec.ofNat 32 (!c).toNat
      c := decide (b.toNat + (!c).toNat ≤ a.toNat)
      v := overflows (a.toInt - b.toInt - (!c).toNat) } := by
  rw [addWithCarry_add]
  have h1 := a.isLt
  have h2 := b.isLt
  simp only [AluOut.mk.injEq]
  refine ⟨?_, ?_, ?_⟩
  · apply BitVec.eq_of_toNat_eq
    cases c <;> simp [BitVec.toNat_add, BitVec.toNat_sub, BitVec.toNat_not] <;> omega
  · rw [BitVec.toNat_not]
    cases c <;> simp <;> omega
  · congr 1
    have : (~~~b).toInt = -b.toInt - 1 := by
      simp only [BitVec.toInt_eq_toNat_cond, BitVec.toNat_not]
      split <;> split <;> omega
    rw [this]
    cases c <;> simp <;> omega

/-- The adder does not tell its operands apart. -/
theorem addWithCarry_comm (a b : Word) (c : Bool) : addWithCarry a b c = addWithCarry b a c := by
  simp only [addWithCarry, Nat.add_comm a.toNat, Int.add_comm a.toInt]

/-- ADD and CMN. -/
theorem addWithCarry_false (a b : Word) : addWithCarry a b false =
    { value := a + b, c := decide (4294967296 ≤ a.toNat + b.toNat), v := overflows (a.toInt + b.toInt) } := by
  rw [addWithCarry_add]; simp

/-- SUB and CMP. -/
theorem addWithCarry_not_true (a b : Word) : addWithCarry a (~~~b) true =
    { value := a - b, c := decide (b.toNat ≤ a.toNat), v := overflows (a.toInt - b.toInt) } := by
  rw [addWithCarry_sub]; simp

theorem alu_sub (a b : Word) (sc : Bool) (p : Psr) : alu .sub a b sc p =
    { value := a - b, c := decide (b.toNat ≤ a.toNat), v := overflows (a.toInt - b.toInt) } := addWithCarry_not_true a b

theorem alu_cmp (a b : Word) (sc : Bool) (p : Psr) : alu .cmp a b sc p =
    { value := a - b, c := decide (b.toNat ≤ a.toNat), v := overflows (a.toInt - b.toInt) } := addWithCarry_not_true a b

theorem alu_rsb (a b : Word) (sc : Bool) (p : Psr) : alu .rsb a b sc p =
    { value := b - a, c := decide (a.toNat ≤ b.toNat), v := overflows (b.toInt - a.toInt) } :=
  (addWithCarry_comm _ _ _).trans (addWithCarry_not_true b a)

theorem alu_add (a b : Word) (sc : Bool) (p : Psr) : alu .add a b sc p =
    { value := a + b, c := decide (4294967296 ≤ a.toNat + b.toNat), v := overflows (a.toInt + b.toInt) } :=
  addWithCarry_false a b

theorem alu_cmn (a b : Word) (sc : Bool) (p : Psr) : alu .cmn a b sc p =
    { value := a + b, c := decide (4294967296 ≤ a.toNat + b.toNat), v := overflows (a.toInt + b.toInt) } :=
  addWithCarry_false a b

theorem alu_adc (a b : Word) (sc : Bool) (p : Psr) : alu .adc a b sc p = {
    value := a + b + BitVec.ofNat 32 p.c.toNat
    c := decide (4294967296 ≤ a.toNat + b.toNat + p.c.toNat)
    v := overflows (a.toInt + b.toInt + p.c.toNat) } := addWithCarry_add a b p.c

theorem alu_sbc (a b : Word) (sc : Bool) (p : Psr) : alu .sbc a b sc p = {
    value := a - b - BitVec.ofNat 32 (!p.c).toNat
    c := decide (b.toNat + (!p.c).toNat ≤ a.toNat)
    v := overflows (a.toInt - b.toInt - (!p.c).toNat) } := addWithCarry_sub a b p.c

theorem alu_rsc (a b : Word) (sc : Bool) (p : Psr) : alu .rsc a b sc p = {
    value := b - a - BitVec.ofNat 32 (!p.c).toNat
    c := decide (a.toNat + (!p.c).toNat ≤ b.toNat)
    v := overflows (b.toInt - a.toInt - (!p.c).toNat) } := (addWithCarry_comm _ _ _).trans (addWithCarry_sub b a p.c)

end Sys2Proof.Machine
end

