-- ==== Sys2Proof/Laws/Decode.lean ====
section
/-! SUPPORT. Decoder and encoder: fields of placed pieces, each format's fields read back from its encoding, and the table's
rows pairwise disjoint (spec/30_encoding.md R102). -/

namespace Sys2Proof

@[simp] theorem condOfBits_condBits (c : Cond) : condOfBits (condBits c) = some c := by cases c <;> rfl

@[simp] theorem shiftOfBits_shiftBits (t : ShiftType) : shiftOfBits (shiftBits t) = t := by cases t <;> rfl

@[simp] theorem flagBit_beq (b : Bool) : (flagBit b == 1#1) = b := by cases b <;> rfl

/-- A bit is a one-bit field. -/
theorem bit_field {n : Nat} (w : BitVec n) (i : Nat) : bit w i = (field w i 1 == 1#1) := by
  unfold bit field
  rw [Bool.eq_iff_iff]
  simp only [beq_iff_eq]
  constructor
  · intro h
    apply BitVec.eq_of_getLsbD_eq
    intro j hj
    have : j = 0 := by omega
    subst this
    simp [h]
  · intro h
    simpa using congrArg (·.getLsbD 0) h

@[simp] theorem field_or {n : Nat} (x y : BitVec n) (lo len : Nat) :
    field (x ||| y) lo len = field x lo len ||| field y lo len := by
  simp [field, BitVec.extractLsb'_or]

/-- A piece is read back from its own place. -/
theorem field_place_same {n k : Nat} (v : BitVec k) (lo : Nat) (h : lo + k ≤ n) :
    field (place lo v : BitVec n) lo k = v := by
  apply BitVec.eq_of_getLsbD_eq
  intro i hi
  have h1 : lo + i < n := by omega
  simp [field, place, hi, h1]

/-- A piece below a field does not show in it. -/
theorem field_place_above {n k : Nat} (v : BitVec k) (p lo len : Nat) (h : p + k ≤ lo) :
    field (place p v : BitVec n) lo len = 0#len := by
  apply BitVec.eq_of_getLsbD_eq
  intro i hi
  simp only [field, place, BitVec.getLsbD_extractLsb', BitVec.getLsbD_shiftLeft, BitVec.getLsbD_setWidth,
    BitVec.getLsbD_zero]
  rw [BitVec.getLsbD_of_ge v _ (by omega)]
  simp

/-- A piece above a field does not show in it. -/
theorem field_place_below {n k : Nat} (v : BitVec k) (p lo len : Nat) (h : lo + len ≤ p) :
    field (place p v : BitVec n) lo len = 0#len := by
  apply BitVec.eq_of_getLsbD_eq
  intro i hi
  have h1 : lo + i < p := by omega
  simp [field, place, h1]

/-- Masking a placed piece. -/
theorem place_and {n k : Nat} (v : BitVec k) (p : Nat) (m : BitVec n) :
    place p v &&& m = place p (v &&& field m p k) := by
  apply BitVec.eq_of_getLsbD_eq
  intro i hi
  simp only [field, place, BitVec.getLsbD_and, BitVec.getLsbD_shiftLeft, BitVec.getLsbD_setWidth,
    BitVec.getLsbD_extractLsb', hi]
  by_cases h : i < p
  · simp [h]
  · by_cases h2 : i - p < k
    · have h3 : i - p < n := by omega
      simp [h, h2, h3, show p + (i - p) = i by omega]
    · simp [h, BitVec.getLsbD_of_ge v (i - p) (by omega)]

@[simp] theorem place_zero {n : Nat} (p k : Nat) : (place p (0#k) : BitVec n) = 0#n := by
  apply BitVec.eq_of_getLsbD_eq; intro i hi; simp [place]

/-- Masking a union of pieces. -/
theorem or_and {n : Nat} (x y m : BitVec n) : (x ||| y) &&& m = (x &&& m) ||| (y &&& m) := by
  ext i; simp [Bool.and_or_distrib_right]

/-! ### Each format read back from its encoding -/

theorem read_enc_A1 (op : BitVec 4) (f : A1) : readA1 f.cond (encA1 op f) = f := by
  simp (disch := decide) only [readA1, encA1, field_or, field_place_same, field_place_above, field_place_below, BitVec.or_zero, BitVec.zero_or, bit_field, flagBit_beq]

theorem cond_enc_A1 (op : BitVec 4) (f : A1) : field (encA1 op f) 28 4 = condBits f.cond := by
  simp (disch := decide) only [encA1, field_or, field_place_same, field_place_above, field_place_below, BitVec.or_zero, BitVec.zero_or]

theorem read_enc_A1Cmp (op : BitVec 4) (f : A1Cmp) : readA1Cmp f.cond (encA1Cmp op f) = f := by
  simp (disch := decide) only [readA1Cmp, encA1Cmp, field_or, field_place_same, field_place_above, field_place_below, BitVec.or_zero, BitVec.zero_or]

theorem cond_enc_A1Cmp (op : BitVec 4) (f : A1Cmp) : field (encA1Cmp op f) 28 4 = condBits f.cond := by
  simp (disch := decide) only [encA1Cmp, field_or, field_place_same, field_place_above, field_place_below, BitVec.or_zero, BitVec.zero_or]

theorem read_enc_A1Mov (op : BitVec 4) (f : A1Mov) : readA1Mov f.cond (encA1Mov op f) = f := by
  simp (disch := decide) only [readA1Mov, encA1Mov, field_or, field_place_same, field_place_above, field_place_below, BitVec.or_zero, BitVec.zero_or, bit_field, flagBit_beq]

theorem cond_enc_A1Mov (op : BitVec 4) (f : A1Mov) : field (encA1Mov op f) 28 4 = condBits f.cond := by
  simp (disch := decide) only [encA1Mov, field_or, field_place_same, field_place_above, field_place_below, BitVec.or_zero, BitVec.zero_or]

theorem read_enc_A2 (op : BitVec 4) (f : A2) : readA2 f.cond (encA2 op f) = f := by
  simp (disch := decide) only [readA2, encA2, field_or, field_place_same, field_place_above, field_place_below, BitVec.or_zero, BitVec.zero_or, bit_field, flagBit_beq, shiftOfBits_shiftBits]

theorem cond_enc_A2 (op : BitVec 4) (f : A2) : field (encA2 op f) 28 4 = condBits f.cond := by
  simp (disch := decide) only [encA2, field_or, field_place_same, field_place_above, field_place_below, BitVec.or_zero, BitVec.zero_or]

theorem read_enc_A2Cmp (op : BitVec 4) (f : A2Cmp) : readA2Cmp f.cond (encA2Cmp op f) = f := by
  simp (disch := decide) only [readA2Cmp, encA2Cmp, field_or, field_place_same, field_place_above, field_place_below, BitVec.or_zero, BitVec.zero_or, shiftOfBits_shiftBits]

theorem cond_enc_A2Cmp (op : BitVec 4) (f : A2Cmp) : field (encA2Cmp op f) 28 4 = condBits f.cond := by
  simp (disch := decide) only [encA2Cmp, field_or, field_place_same, field_place_above, field_place_below, BitVec.or_zero, BitVec.zero_or]

theorem read_enc_A2Mov (op : BitVec 4) (f : A2Mov) : readA2Mov f.cond (encA2Mov op f) = f := by
  simp (disch := decide) only [readA2Mov, encA2Mov, field_or, field_place_same, field_place_above, field_place_below, BitVec.or_zero, BitVec.zero_or, bit_field, flagBit_beq, shiftOfBits_shiftBits]

theorem cond_enc_A2Mov (op : BitVec 4) (f : A2Mov) : field (encA2Mov op f) 28 4 = condBits f.cond := by
  simp (disch := decide) only [encA2Mov, field_or, field_place_same, field_place_above, field_place_below, BitVec.or_zero, BitVec.zero_or]

theorem read_enc_A3 (op : BitVec 4) (f : A3) : readA3 f.cond (encA3 op f) = f := by
  simp (disch := decide) only [readA3, encA3, field_or, field_place_same, field_place_above, field_place_below, BitVec.or_zero, BitVec.zero_or, bit_field, flagBit_beq, shiftOfBits_shiftBits]

theorem cond_enc_A3 (op : BitVec 4) (f : A3) : field (encA3 op f) 28 4 = condBits f.cond := by
  simp (disch := decide) only [encA3, field_or, field_place_same, field_place_above, field_place_below, BitVec.or_zero, BitVec.zero_or]

theorem read_enc_A3Cmp (op : BitVec 4) (f : A3Cmp) : readA3Cmp f.cond (encA3Cmp op f) = f := by
  simp (disch := decide) only [readA3Cmp, encA3Cmp, field_or, field_place_same, field_place_above, field_place_below, BitVec.or_zero, BitVec.zero_or, shiftOfBits_shiftBits]

theorem cond_enc_A3Cmp (op : BitVec 4) (f : A3Cmp) : field (encA3Cmp op f) 28 4 = condBits f.cond := by
  simp (disch := decide) only [encA3Cmp, field_or, field_place_same, field_place_above, field_place_below, BitVec.or_zero, BitVec.zero_or]

theorem read_enc_A3Mov (op : BitVec 4) (f : A3Mov) : readA3Mov f.cond (encA3Mov op f) = f := by
  simp (disch := decide) only [readA3Mov, encA3Mov, field_or, field_place_same, field_place_above, field_place_below, BitVec.or_zero, BitVec.zero_or, bit_field, flagBit_beq, shiftOfBits_shiftBits]

theorem cond_enc_A3Mov (op : BitVec 4) (f : A3Mov) : field (encA3Mov op f) 28 4 = condBits f.cond := by
  simp (disch := decide) only [encA3Mov, field_or, field_place_same, field_place_above, field_place_below, BitVec.or_zero, BitVec.zero_or]

theorem read_enc_Mrs (f : Mrs) : readMrs f.cond (encMrs f) = f := by
  simp (disch := decide) only [readMrs, encMrs, field_or, field_place_same, field_place_above, field_place_below, BitVec.or_zero, BitVec.zero_or, bit_field, flagBit_beq]

theorem cond_enc_Mrs (f : Mrs) : field (encMrs f) 28 4 = condBits f.cond := by
  simp (disch := decide) only [encMrs, field_or, field_place_same, field_place_above, field_place_below, BitVec.or_zero, BitVec.zero_or]

theorem read_enc_MsrImm (f : MsrImm) : readMsrImm f.cond (encMsrImm f) = f := by
  simp (disch := decide) only [readMsrImm, encMsrImm, field_or, field_place_same, field_place_above, field_place_below, BitVec.or_zero, BitVec.zero_or, bit_field, flagBit_beq]

theorem cond_enc_MsrImm (f : MsrImm) : field (encMsrImm f) 28 4 = condBits f.cond := by
  simp (disch := decide) only [encMsrImm, field_or, field_place_same, field_place_above, field_place_below, BitVec.or_zero, BitVec.zero_or]

theorem read_enc_MsrReg (f : MsrReg) : readMsrReg f.cond (encMsrReg f) = f := by
  simp (disch := decide) only [readMsrReg, encMsrReg, field_or, field_place_same, field_place_above, field_place_below, BitVec.or_zero, BitVec.zero_or, bit_field, flagBit_beq]

theorem cond_enc_MsrReg (f : MsrReg) : field (encMsrReg f) 28 4 = condBits f.cond := by
  simp (disch := decide) only [encMsrReg, field_or, field_place_same, field_place_above, field_place_below, BitVec.or_zero, BitVec.zero_or]

theorem read_enc_Bx (f : Bx) : readBx f.cond (encBx f) = f := by
  simp (disch := decide) only [readBx, encBx, field_or, field_place_same, field_place_above, field_place_below, BitVec.or_zero, BitVec.zero_or]

theorem cond_enc_Bx (f : Bx) : field (encBx f) 28 4 = condBits f.cond := by
  simp (disch := decide) only [encBx, field_or, field_place_same, field_place_above, field_place_below, BitVec.or_zero, BitVec.zero_or]

theorem read_enc_Mul (f : Mul) : readMul f.cond (encMul f) = f := by
  simp (disch := decide) only [readMul, encMul, field_or, field_place_same, field_place_above, field_place_below, BitVec.or_zero, BitVec.zero_or, bit_field, flagBit_beq]

theorem cond_enc_Mul (f : Mul) : field (encMul f) 28 4 = condBits f.cond := by
  simp (disch := decide) only [encMul, field_or, field_place_same, field_place_above, field_place_below, BitVec.or_zero, BitVec.zero_or]

theorem read_enc_Mla (f : Mla) : readMla f.cond (encMla f) = f := by
  simp (disch := decide) only [readMla, encMla, field_or, field_place_same, field_place_above, field_place_below, BitVec.or_zero, BitVec.zero_or, bit_field, flagBit_beq]

theorem cond_enc_Mla (f : Mla) : field (encMla f) 28 4 = condBits f.cond := by
  simp (disch := decide) only [encMla, field_or, field_place_same, field_place_above, field_place_below, BitVec.or_zero, BitVec.zero_or]

theorem read_enc_Mull (ua : BitVec 2) (f : Mull) : readMull f.cond (encMull ua f) = f := by
  simp (disch := decide) only [readMull, encMull, field_or, field_place_same, field_place_above, field_place_below, BitVec.or_zero, BitVec.zero_or, bit_field, flagBit_beq]

theorem cond_enc_Mull (ua : BitVec 2) (f : Mull) : field (encMull ua f) 28 4 = condBits f.cond := by
  simp (disch := decide) only [encMull, field_or, field_place_same, field_place_above, field_place_below, BitVec.or_zero, BitVec.zero_or]

theorem read_enc_Swp (b : BitVec 1) (f : Swp) : readSwp f.cond (encSwp b f) = f := by
  simp (disch := decide) only [readSwp, encSwp, field_or, field_place_same, field_place_above, field_place_below, BitVec.or_zero, BitVec.zero_or]

theorem cond_enc_Swp (b : BitVec 1) (f : Swp) : field (encSwp b f) 28 4 = condBits f.cond := by
  simp (disch := decide) only [encSwp, field_or, field_place_same, field_place_above, field_place_below, BitVec.or_zero, BitVec.zero_or]

theorem read_enc_HwReg (l : BitVec 1) (sh : BitVec 2) (f : HwReg) : readHwReg f.cond (encHwReg l sh f) = f := by
  simp (disch := decide) only [readHwReg, encHwReg, field_or, field_place_same, field_place_above, field_place_below, BitVec.or_zero, BitVec.zero_or, bit_field, flagBit_beq]

theorem cond_enc_HwReg (l : BitVec 1) (sh : BitVec 2) (f : HwReg) : field (encHwReg l sh f) 28 4 = condBits f.cond := by
  simp (disch := decide) only [encHwReg, field_or, field_place_same, field_place_above, field_place_below, BitVec.or_zero, BitVec.zero_or]

theorem read_enc_HwImm (l : BitVec 1) (sh : BitVec 2) (f : HwImm) : readHwImm f.cond (encHwImm l sh f) = f := by
  simp (disch := decide) only [readHwImm, encHwImm, field_or, field_place_same, field_place_above, field_place_below, BitVec.or_zero, BitVec.zero_or, bit_field, flagBit_beq]

theorem cond_enc_HwImm (l : BitVec 1) (sh : BitVec 2) (f : HwImm) : field (encHwImm l sh f) 28 4 = condBits f.cond := by
  simp (disch := decide) only [encHwImm, field_or, field_place_same, field_place_above, field_place_below, BitVec.or_zero, BitVec.zero_or]

theorem read_enc_LsImmPre (b : BitVec 1) (l : BitVec 1) (f : LsImmPre) : readLsImmPre f.cond (encLsImmPre b l f) = f := by
  simp (disch := decide) only [readLsImmPre, encLsImmPre, field_or, field_place_same, field_place_above, field_place_below, BitVec.or_zero, BitVec.zero_or, bit_field, flagBit_beq]

theorem cond_enc_LsImmPre (b : BitVec 1) (l : BitVec 1) (f : LsImmPre) : field (encLsImmPre b l f) 28 4 = condBits f.cond := by
  simp (disch := decide) only [encLsImmPre, field_or, field_place_same, field_place_above, field_place_below, BitVec.or_zero, BitVec.zero_or]

theorem read_enc_LsImmPost (b : BitVec 1) (t : BitVec 1) (l : BitVec 1) (f : LsImmPost) : readLsImmPost f.cond (encLsImmPost b t l f) = f := by
  simp (disch := decide) only [readLsImmPost, encLsImmPost, field_or, field_place_same, field_place_above, field_place_below, BitVec.or_zero, BitVec.zero_or, bit_field, flagBit_beq]

theorem cond_enc_LsImmPost (b : BitVec 1) (t : BitVec 1) (l : BitVec 1) (f : LsImmPost) : field (encLsImmPost b t l f) 28 4 = condBits f.cond := by
  simp (disch := decide) only [encLsImmPost, field_or, field_place_same, field_place_above, field_place_below, BitVec.or_zero, BitVec.zero_or]

theorem read_enc_LsRegPre (b : BitVec 1) (l : BitVec 1) (f : LsRegPre) : readLsRegPre f.cond (encLsRegPre b l f) = f := by
  simp (disch := decide) only [readLsRegPre, encLsRegPre, field_or, field_place_same, field_place_above, field_place_below, BitVec.or_zero, BitVec.zero_or, bit_field, flagBit_beq, shiftOfBits_shiftBits]

theorem cond_enc_LsRegPre (b : BitVec 1) (l : BitVec 1) (f : LsRegPre) : field (encLsRegPre b l f) 28 4 = condBits f.cond := by
  simp (disch := decide) only [encLsRegPre, field_or, field_place_same, field_place_above, field_place_below, BitVec.or_zero, BitVec.zero_or]

theorem read_enc_LsRegPost (b : BitVec 1) (t : BitVec 1) (l : BitVec 1) (f : LsRegPost) : readLsRegPost f.cond (encLsRegPost b t l f) = f := by
  simp (disch := decide) only [readLsRegPost, encLsRegPost, field_or, field_place_same, field_place_above, field_place_below, BitVec.or_zero, BitVec.zero_or, bit_field, flagBit_beq, shiftOfBits_shiftBits]

theorem cond_enc_LsRegPost (b : BitVec 1) (t : BitVec 1) (l : BitVec 1) (f : LsRegPost) : field (encLsRegPost b t l f) 28 4 = condBits f.cond := by
  simp (disch := decide) only [encLsRegPost, field_or, field_place_same, field_place_above, field_place_below, BitVec.or_zero, BitVec.zero_or]

theorem read_enc_UndefSpace (f : UndefSpace) : readUndefSpace f.cond (encUndefSpace f) = f := by
  simp (disch := decide) only [readUndefSpace, encUndefSpace, field_or, field_place_same, field_place_above, field_place_below, BitVec.or_zero, BitVec.zero_or]

theorem cond_enc_UndefSpace (f : UndefSpace) : field (encUndefSpace f) 28 4 = condBits f.cond := by
  simp (disch := decide) only [encUndefSpace, field_or, field_place_same, field_place_above, field_place_below, BitVec.or_zero, BitVec.zero_or]

theorem read_enc_Block (s : BitVec 1) (l : BitVec 1) (f : Block) : readBlock f.cond (encBlock s l f) = f := by
  simp (disch := decide) only [readBlock, encBlock, field_or, field_place_same, field_place_above, field_place_below, BitVec.or_zero, BitVec.zero_or, bit_field, flagBit_beq]

theorem cond_enc_Block (s : BitVec 1) (l : BitVec 1) (f : Block) : field (encBlock s l f) 28 4 = condBits f.cond := by
  simp (disch := decide) only [encBlock, field_or, field_place_same, field_place_above, field_place_below, BitVec.or_zero, BitVec.zero_or]

theorem read_enc_BlockUser (pc : BitVec 1) (f : BlockUser) : readBlockUser f.cond (encBlockUser pc f) = f := by
  simp (disch := decide) only [readBlockUser, encBlockUser, field_or, field_place_same, field_place_above, field_place_below, BitVec.or_zero, BitVec.zero_or, bit_field, flagBit_beq]

theorem cond_enc_BlockUser (pc : BitVec 1) (f : BlockUser) : field (encBlockUser pc f) 28 4 = condBits f.cond := by
  simp (disch := decide) only [encBlockUser, field_or, field_place_same, field_place_above, field_place_below, BitVec.or_zero, BitVec.zero_or]

theorem read_enc_Branch (l : BitVec 1) (f : Branch) : readBranch f.cond (encBranch l f) = f := by
  simp (disch := decide) only [readBranch, encBranch, field_or, field_place_same, field_place_above, field_place_below, BitVec.or_zero, BitVec.zero_or]

theorem cond_enc_Branch (l : BitVec 1) (f : Branch) : field (encBranch l f) 28 4 = condBits f.cond := by
  simp (disch := decide) only [encBranch, field_or, field_place_same, field_place_above, field_place_below, BitVec.or_zero, BitVec.zero_or]

theorem read_enc_CpLs (l : BitVec 1) (f : CpLs) : readCpLs f.cond (encCpLs l f) = f := by
  simp (disch := decide) only [readCpLs, encCpLs, field_or, field_place_same, field_place_above, field_place_below, BitVec.or_zero, BitVec.zero_or, bit_field, flagBit_beq]

theorem cond_enc_CpLs (l : BitVec 1) (f : CpLs) : field (encCpLs l f) 28 4 = condBits f.cond := by
  simp (disch := decide) only [encCpLs, field_or, field_place_same, field_place_above, field_place_below, BitVec.or_zero, BitVec.zero_or]

theorem read_enc_CpDp (f : CpDp) : readCpDp f.cond (encCpDp f) = f := by
  simp (disch := decide) only [readCpDp, encCpDp, field_or, field_place_same, field_place_above, field_place_below, BitVec.or_zero, BitVec.zero_or]

theorem cond_enc_CpDp (f : CpDp) : field (encCpDp f) 28 4 = condBits f.cond := by
  simp (disch := decide) only [encCpDp, field_or, field_place_same, field_place_above, field_place_below, BitVec.or_zero, BitVec.zero_or]

theorem read_enc_CpRt (l : BitVec 1) (f : CpRt) : readCpRt f.cond (encCpRt l f) = f := by
  simp (disch := decide) only [readCpRt, encCpRt, field_or, field_place_same, field_place_above, field_place_below, BitVec.or_zero, BitVec.zero_or]

theorem cond_enc_CpRt (l : BitVec 1) (f : CpRt) : field (encCpRt l f) 28 4 = condBits f.cond := by
  simp (disch := decide) only [encCpRt, field_or, field_place_same, field_place_above, field_place_below, BitVec.or_zero, BitVec.zero_or]

theorem read_enc_Swi (f : Swi) : readSwi f.cond (encSwi f) = f := by
  simp (disch := decide) only [readSwi, encSwi, field_or, field_place_same, field_place_above, field_place_below, BitVec.or_zero, BitVec.zero_or]

theorem cond_enc_Swi (f : Swi) : field (encSwi f) 28 4 = condBits f.cond := by
  simp (disch := decide) only [encSwi, field_or, field_place_same, field_place_above, field_place_below, BitVec.or_zero, BitVec.zero_or]

theorem read_enc_T1 (op : BitVec 2) (f : T1) : readT1 (encT1 op f) = f := by
  simp (disch := decide) only [readT1, encT1, field_or, field_place_same, field_place_above, field_place_below, BitVec.or_zero, BitVec.zero_or]

theorem read_enc_T2Reg (op : BitVec 1) (f : T2Reg) : readT2Reg (encT2Reg op f) = f := by
  simp (disch := decide) only [readT2Reg, encT2Reg, field_or, field_place_same, field_place_above, field_place_below, BitVec.or_zero, BitVec.zero_or]

theorem read_enc_T2Imm (op : BitVec 1) (f : T2Imm) : readT2Imm (encT2Imm op f) = f := by
  simp (disch := decide) only [readT2Imm, encT2Imm, field_or, field_place_same, field_place_above, field_place_below, BitVec.or_zero, BitVec.zero_or]

theorem read_enc_T3 (op : BitVec 2) (f : T3) : readT3 (encT3 op f) = f := by
  simp (disch := decide) only [readT3, encT3, field_or, field_place_same, field_place_above, field_place_below, BitVec.or_zero, BitVec.zero_or]

theorem read_enc_T4 (op : BitVec 4) (f : T4) : readT4 (encT4 op f) = f := by
  simp (disch := decide) only [readT4, encT4, field_or, field_place_same, field_place_above, field_place_below, BitVec.or_zero, BitVec.zero_or]

theorem read_enc_T5 (op : BitVec 2) (f : T5) : readT5 (encT5 op f) = f := by
  simp (disch := decide) only [readT5, encT5, field_or, field_place_same, field_place_above, field_place_below, BitVec.or_zero, BitVec.zero_or, bit_field, flagBit_beq]

theorem read_enc_T5Bx (f : T5Bx) : readT5Bx (encT5Bx f) = f := by
  simp (disch := decide) only [readT5Bx, encT5Bx, field_or, field_place_same, field_place_above, field_place_below, BitVec.or_zero, BitVec.zero_or, bit_field, flagBit_beq]

theorem read_enc_T6 (op : BitVec 5) (f : T6) : readT6 (encT6 op f) = f := by
  simp (disch := decide) only [readT6, encT6, field_or, field_place_same, field_place_above, field_place_below, BitVec.or_zero, BitVec.zero_or]

theorem read_enc_T7 (op : BitVec 3) (f : T7) : readT7 (encT7 op f) = f := by
  simp (disch := decide) only [readT7, encT7, field_or, field_place_same, field_place_above, field_place_below, BitVec.or_zero, BitVec.zero_or]

theorem read_enc_T9 (op : BitVec 5) (f : T9) : readT9 (encT9 op f) = f := by
  simp (disch := decide) only [readT9, encT9, field_or, field_place_same, field_place_above, field_place_below, BitVec.or_zero, BitVec.zero_or]

theorem read_enc_T13 (s : BitVec 1) (f : T13) : readT13 (encT13 s f) = f := by
  simp (disch := decide) only [readT13, encT13, field_or, field_place_same, field_place_above, field_place_below, BitVec.or_zero, BitVec.zero_or]

theorem read_enc_T14 (l : BitVec 1) (f : T14) : readT14 (encT14 l f) = f := by
  simp (disch := decide) only [readT14, encT14, field_or, field_place_same, field_place_above, field_place_below, BitVec.or_zero, BitVec.zero_or, bit_field, flagBit_beq]

theorem read_enc_T15 (l : BitVec 1) (f : T15) : readT15 (encT15 l f) = f := by
  simp (disch := decide) only [readT15, encT15, field_or, field_place_same, field_place_above, field_place_below, BitVec.or_zero, BitVec.zero_or]

theorem read_enc_T16 (c : BitVec 4) (f : T16) : readT16 (encT16 c f) = f := by
  simp (disch := decide) only [readT16, encT16, field_or, field_place_same, field_place_above, field_place_below, BitVec.or_zero, BitVec.zero_or]

theorem read_enc_T18 (op : BitVec 5) (f : T18) : readT18 (encT18 op f) = f := by
  simp (disch := decide) only [readT18, encT18, field_or, field_place_same, field_place_above, field_place_below, BitVec.or_zero, BitVec.zero_or]

/-! ### The rows -/

/-- Two rows that no word can match together. -/
def disjointBits {n : Nat} (m1 v1 m2 v2 : BitVec n) : Bool := (m1 &&& m2) &&& (v1 ^^^ v2) != 0#n

/-- No word matches two disjoint rows. -/
theorem not_both_match {n : Nat} {m1 v1 m2 v2 w : BitVec n} (h : disjointBits m1 v1 m2 v2 = true) (h1 : w &&& m1 = v1) :
    w &&& m2 ≠ v2 := by
  intro h2
  have : (m1 &&& m2) &&& (v1 ^^^ v2) = 0#n := by
    rw [← h1, ← h2]
    ext i hi
    simp only [BitVec.getElem_and, BitVec.getElem_xor, BitVec.getElem_zero]
    cases w[i] <;> cases m1[i] <;> cases m2[i] <;> rfl
  simp [disjointBits, this] at h

/-- The ARM rows are pairwise disjoint (R102). -/
theorem armRows_disjoint : armRows.Pairwise fun a b => disjointBits a.mask a.value b.mask b.value = true := by decide

/-- The Thumb rows are pairwise disjoint (R130). -/
theorem thumbRows_disjoint : thumbRows.Pairwise fun a b => disjointBits a.mask a.value b.mask b.value = true := by decide

/-- In a list where no later element satisfies the test of an earlier one, the first found is the one that satisfies it. -/
theorem find_unique {α : Type} {p : α → Bool} {l : List α} {r : α} (hm : r ∈ l) (hr : p r = true)
    (hd : l.Pairwise fun a b => p a = true → p b = true → False) : l.find? p = some r := by
  induction l with
  | nil => cases hm
  | cons a l ih =>
    rw [List.pairwise_cons] at hd
    cases hm with
    | head => simp [List.find?, hr]
    | tail _ hm =>
      have ha : p a = false := by
        cases e : p a with
        | false => rfl
        | true => exact (hd.1 r hm e hr).elim
      simp [List.find?, ha, ih hm hd.2]

/-- An ARM word that matches a row and whose condition is not 1111 decodes to that row's instruction. -/
theorem decodeArm_row {w : Word} {r : ArmRow} {c : Cond} (hm : r ∈ armRows) (hr : w &&& r.mask = r.value)
    (hc : field w 28 4 = condBits c) : decodeArm w = .instr (r.build c w) := by
  have hf : armRows.find? (armMatches w) = some r := by
    refine find_unique hm (by simpa [armMatches] using hr) (armRows_disjoint.imp ?_)
    intro a b h h1 h2
    exact not_both_match h (by simpa [armMatches] using h1) (by simpa [armMatches] using h2)
  unfold decodeArm
  rw [hc, condOfBits_condBits]
  simp only [hf]

/-- A Thumb halfword that matches a row decodes to that row's instruction. -/
theorem decodeThumb_row {h : Half} {r : ThumbRow} (hm : r ∈ thumbRows) (hr : h &&& r.mask = r.value) :
    decodeThumb h = .instr (r.build h) := by
  have hf : thumbRows.find? (thumbMatches h) = some r := by
    refine find_unique hm (by simpa [thumbMatches] using hr) (thumbRows_disjoint.imp ?_)
    intro a b h h1 h2
    exact not_both_match h (by simpa [thumbMatches] using h1) (by simpa [thumbMatches] using h2)
  unfold decodeThumb
  simp only [hf]

end Sys2Proof
end

