-- ==== Sys2Proof/Laws/Exec.lean ====
section
/-! SUPPORT. The meaning each instruction has: one equation per constructor, so that no proof unfolds `exec`. -/

namespace Sys2Proof.Machine

theorem exec_andA1 (f : A1) (s : State) : exec (.andA1 f) s = execAndA1 f s := rfl
theorem exec_andA2 (f : A2) (s : State) : exec (.andA2 f) s = execAndA2 f s := rfl
theorem exec_andA3 (f : A3) (s : State) : exec (.andA3 f) s = execAndA3 f s := rfl
theorem exec_eorA1 (f : A1) (s : State) : exec (.eorA1 f) s = execEorA1 f s := rfl
theorem exec_eorA2 (f : A2) (s : State) : exec (.eorA2 f) s = execEorA2 f s := rfl
theorem exec_eorA3 (f : A3) (s : State) : exec (.eorA3 f) s = execEorA3 f s := rfl
theorem exec_subA1 (f : A1) (s : State) : exec (.subA1 f) s = execSubA1 f s := rfl
theorem exec_subA2 (f : A2) (s : State) : exec (.subA2 f) s = execSubA2 f s := rfl
theorem exec_subA3 (f : A3) (s : State) : exec (.subA3 f) s = execSubA3 f s := rfl
theorem exec_rsbA1 (f : A1) (s : State) : exec (.rsbA1 f) s = execRsbA1 f s := rfl
theorem exec_rsbA2 (f : A2) (s : State) : exec (.rsbA2 f) s = execRsbA2 f s := rfl
theorem exec_rsbA3 (f : A3) (s : State) : exec (.rsbA3 f) s = execRsbA3 f s := rfl
theorem exec_addA1 (f : A1) (s : State) : exec (.addA1 f) s = execAddA1 f s := rfl
theorem exec_addA2 (f : A2) (s : State) : exec (.addA2 f) s = execAddA2 f s := rfl
theorem exec_addA3 (f : A3) (s : State) : exec (.addA3 f) s = execAddA3 f s := rfl
theorem exec_adcA1 (f : A1) (s : State) : exec (.adcA1 f) s = execAdcA1 f s := rfl
theorem exec_adcA2 (f : A2) (s : State) : exec (.adcA2 f) s = execAdcA2 f s := rfl
theorem exec_adcA3 (f : A3) (s : State) : exec (.adcA3 f) s = execAdcA3 f s := rfl
theorem exec_sbcA1 (f : A1) (s : State) : exec (.sbcA1 f) s = execSbcA1 f s := rfl
theorem exec_sbcA2 (f : A2) (s : State) : exec (.sbcA2 f) s = execSbcA2 f s := rfl
theorem exec_sbcA3 (f : A3) (s : State) : exec (.sbcA3 f) s = execSbcA3 f s := rfl
theorem exec_rscA1 (f : A1) (s : State) : exec (.rscA1 f) s = execRscA1 f s := rfl
theorem exec_rscA2 (f : A2) (s : State) : exec (.rscA2 f) s = execRscA2 f s := rfl
theorem exec_rscA3 (f : A3) (s : State) : exec (.rscA3 f) s = execRscA3 f s := rfl
theorem exec_tstA1 (f : A1Cmp) (s : State) : exec (.tstA1 f) s = execTstA1 f s := rfl
theorem exec_tstA2 (f : A2Cmp) (s : State) : exec (.tstA2 f) s = execTstA2 f s := rfl
theorem exec_tstA3 (f : A3Cmp) (s : State) : exec (.tstA3 f) s = execTstA3 f s := rfl
theorem exec_teqA1 (f : A1Cmp) (s : State) : exec (.teqA1 f) s = execTeqA1 f s := rfl
theorem exec_teqA2 (f : A2Cmp) (s : State) : exec (.teqA2 f) s = execTeqA2 f s := rfl
theorem exec_teqA3 (f : A3Cmp) (s : State) : exec (.teqA3 f) s = execTeqA3 f s := rfl
theorem exec_cmpA1 (f : A1Cmp) (s : State) : exec (.cmpA1 f) s = execCmpA1 f s := rfl
theorem exec_cmpA2 (f : A2Cmp) (s : State) : exec (.cmpA2 f) s = execCmpA2 f s := rfl
theorem exec_cmpA3 (f : A3Cmp) (s : State) : exec (.cmpA3 f) s = execCmpA3 f s := rfl
theorem exec_cmnA1 (f : A1Cmp) (s : State) : exec (.cmnA1 f) s = execCmnA1 f s := rfl
theorem exec_cmnA2 (f : A2Cmp) (s : State) : exec (.cmnA2 f) s = execCmnA2 f s := rfl
theorem exec_cmnA3 (f : A3Cmp) (s : State) : exec (.cmnA3 f) s = execCmnA3 f s := rfl
theorem exec_orrA1 (f : A1) (s : State) : exec (.orrA1 f) s = execOrrA1 f s := rfl
theorem exec_orrA2 (f : A2) (s : State) : exec (.orrA2 f) s = execOrrA2 f s := rfl
theorem exec_orrA3 (f : A3) (s : State) : exec (.orrA3 f) s = execOrrA3 f s := rfl
theorem exec_movA1 (f : A1Mov) (s : State) : exec (.movA1 f) s = execMovA1 f s := rfl
theorem exec_movA2 (f : A2Mov) (s : State) : exec (.movA2 f) s = execMovA2 f s := rfl
theorem exec_movA3 (f : A3Mov) (s : State) : exec (.movA3 f) s = execMovA3 f s := rfl
theorem exec_bicA1 (f : A1) (s : State) : exec (.bicA1 f) s = execBicA1 f s := rfl
theorem exec_bicA2 (f : A2) (s : State) : exec (.bicA2 f) s = execBicA2 f s := rfl
theorem exec_bicA3 (f : A3) (s : State) : exec (.bicA3 f) s = execBicA3 f s := rfl
theorem exec_mvnA1 (f : A1Mov) (s : State) : exec (.mvnA1 f) s = execMvnA1 f s := rfl
theorem exec_mvnA2 (f : A2Mov) (s : State) : exec (.mvnA2 f) s = execMvnA2 f s := rfl
theorem exec_mvnA3 (f : A3Mov) (s : State) : exec (.mvnA3 f) s = execMvnA3 f s := rfl
theorem exec_mrs (f : Mrs) (s : State) : exec (.mrs f) s = execMrs f s := rfl
theorem exec_msrImm (f : MsrImm) (s : State) : exec (.msrImm f) s = execMsrImm f s := rfl
theorem exec_msrReg (f : MsrReg) (s : State) : exec (.msrReg f) s = execMsrReg f s := rfl
theorem exec_bx (f : Bx) (s : State) : exec (.bx f) s = execBx f s := rfl
theorem exec_mul (f : Mul) (s : State) : exec (.mul f) s = execMul f s := rfl
theorem exec_mla (f : Mla) (s : State) : exec (.mla f) s = execMla f s := rfl
theorem exec_umull (f : Mull) (s : State) : exec (.umull f) s = execUmull f s := rfl
theorem exec_umlal (f : Mull) (s : State) : exec (.umlal f) s = execUmlal f s := rfl
theorem exec_smull (f : Mull) (s : State) : exec (.smull f) s = execSmull f s := rfl
theorem exec_smlal (f : Mull) (s : State) : exec (.smlal f) s = execSmlal f s := rfl
theorem exec_swp (f : Swp) (s : State) : exec (.swp f) s = execSwp f s := rfl
theorem exec_swpb (f : Swp) (s : State) : exec (.swpb f) s = execSwpb f s := rfl
theorem exec_strhReg (f : HwReg) (s : State) : exec (.strhReg f) s = execStrhReg f s := rfl
theorem exec_strhImm (f : HwImm) (s : State) : exec (.strhImm f) s = execStrhImm f s := rfl
theorem exec_ldrhReg (f : HwReg) (s : State) : exec (.ldrhReg f) s = execLdrhReg f s := rfl
theorem exec_ldrhImm (f : HwImm) (s : State) : exec (.ldrhImm f) s = execLdrhImm f s := rfl
theorem exec_ldrsbReg (f : HwReg) (s : State) : exec (.ldrsbReg f) s = execLdrsbReg f s := rfl
theorem exec_ldrsbImm (f : HwImm) (s : State) : exec (.ldrsbImm f) s = execLdrsbImm f s := rfl
theorem exec_ldrshReg (f : HwReg) (s : State) : exec (.ldrshReg f) s = execLdrshReg f s := rfl
theorem exec_ldrshImm (f : HwImm) (s : State) : exec (.ldrshImm f) s = execLdrshImm f s := rfl
theorem exec_ldrImmPre (f : LsImmPre) (s : State) : exec (.ldrImmPre f) s = execLdrImmPre f s := rfl
theorem exec_ldrImmPost (f : LsImmPost) (s : State) : exec (.ldrImmPost f) s = execLdrImmPost f s := rfl
theorem exec_ldrtImm (f : LsImmPost) (s : State) : exec (.ldrtImm f) s = execLdrtImm f s := rfl
theorem exec_ldrRegPre (f : LsRegPre) (s : State) : exec (.ldrRegPre f) s = execLdrRegPre f s := rfl
theorem exec_ldrRegPost (f : LsRegPost) (s : State) : exec (.ldrRegPost f) s = execLdrRegPost f s := rfl
theorem exec_ldrtReg (f : LsRegPost) (s : State) : exec (.ldrtReg f) s = execLdrtReg f s := rfl
theorem exec_ldrbImmPre (f : LsImmPre) (s : State) : exec (.ldrbImmPre f) s = execLdrbImmPre f s := rfl
theorem exec_ldrbImmPost (f : LsImmPost) (s : State) : exec (.ldrbImmPost f) s = execLdrbImmPost f s := rfl
theorem exec_ldrbtImm (f : LsImmPost) (s : State) : exec (.ldrbtImm f) s = execLdrbtImm f s := rfl
theorem exec_ldrbRegPre (f : LsRegPre) (s : State) : exec (.ldrbRegPre f) s = execLdrbRegPre f s := rfl
theorem exec_ldrbRegPost (f : LsRegPost) (s : State) : exec (.ldrbRegPost f) s = execLdrbRegPost f s := rfl
theorem exec_ldrbtReg (f : LsRegPost) (s : State) : exec (.ldrbtReg f) s = execLdrbtReg f s := rfl
theorem exec_strImmPre (f : LsImmPre) (s : State) : exec (.strImmPre f) s = execStrImmPre f s := rfl
theorem exec_strImmPost (f : LsImmPost) (s : State) : exec (.strImmPost f) s = execStrImmPost f s := rfl
theorem exec_strtImm (f : LsImmPost) (s : State) : exec (.strtImm f) s = execStrtImm f s := rfl
theorem exec_strRegPre (f : LsRegPre) (s : State) : exec (.strRegPre f) s = execStrRegPre f s := rfl
theorem exec_strRegPost (f : LsRegPost) (s : State) : exec (.strRegPost f) s = execStrRegPost f s := rfl
theorem exec_strtReg (f : LsRegPost) (s : State) : exec (.strtReg f) s = execStrtReg f s := rfl
theorem exec_strbImmPre (f : LsImmPre) (s : State) : exec (.strbImmPre f) s = execStrbImmPre f s := rfl
theorem exec_strbImmPost (f : LsImmPost) (s : State) : exec (.strbImmPost f) s = execStrbImmPost f s := rfl
theorem exec_strbtImm (f : LsImmPost) (s : State) : exec (.strbtImm f) s = execStrbtImm f s := rfl
theorem exec_strbRegPre (f : LsRegPre) (s : State) : exec (.strbRegPre f) s = execStrbRegPre f s := rfl
theorem exec_strbRegPost (f : LsRegPost) (s : State) : exec (.strbRegPost f) s = execStrbRegPost f s := rfl
theorem exec_strbtReg (f : LsRegPost) (s : State) : exec (.strbtReg f) s = execStrbtReg f s := rfl
theorem exec_undefined (f : UndefSpace) (s : State) : exec (.undefined f) s = execUndefined f s := rfl
theorem exec_ldm1 (f : Block) (s : State) : exec (.ldm1 f) s = execLdm1 f s := rfl
theorem exec_ldm2 (f : BlockUser) (s : State) : exec (.ldm2 f) s = execLdm2 f s := rfl
theorem exec_ldm3 (f : BlockUser) (s : State) : exec (.ldm3 f) s = execLdm3 f s := rfl
theorem exec_stm1 (f : Block) (s : State) : exec (.stm1 f) s = execStm1 f s := rfl
theorem exec_stm2 (f : Block) (s : State) : exec (.stm2 f) s = execStm2 f s := rfl
theorem exec_b (f : Branch) (s : State) : exec (.b f) s = execB f s := rfl
theorem exec_bl (f : Branch) (s : State) : exec (.bl f) s = execBl f s := rfl
theorem exec_ldc (f : CpLs) (s : State) : exec (.ldc f) s = execLdc f s := rfl
theorem exec_stc (f : CpLs) (s : State) : exec (.stc f) s = execStc f s := rfl
theorem exec_cdp (f : CpDp) (s : State) : exec (.cdp f) s = execCdp f s := rfl
theorem exec_mrc (f : CpRt) (s : State) : exec (.mrc f) s = execMrc f s := rfl
theorem exec_mcr (f : CpRt) (s : State) : exec (.mcr f) s = execMcr f s := rfl
theorem exec_swi (f : Swi) (s : State) : exec (.swi f) s = execSwi f s := rfl
theorem exec_tLslImm (f : T1) (s : State) : exec (.tLslImm f) s = execTLslImm f s := rfl
theorem exec_tLsrImm (f : T1) (s : State) : exec (.tLsrImm f) s = execTLsrImm f s := rfl
theorem exec_tAsrImm (f : T1) (s : State) : exec (.tAsrImm f) s = execTAsrImm f s := rfl
theorem exec_tAddReg (f : T2Reg) (s : State) : exec (.tAddReg f) s = execTAddReg f s := rfl
theorem exec_tSubReg (f : T2Reg) (s : State) : exec (.tSubReg f) s = execTSubReg f s := rfl
theorem exec_tAddImm3 (f : T2Imm) (s : State) : exec (.tAddImm3 f) s = execTAddImm3 f s := rfl
theorem exec_tSubImm3 (f : T2Imm) (s : State) : exec (.tSubImm3 f) s = execTSubImm3 f s := rfl
theorem exec_tMovImm (f : T3) (s : State) : exec (.tMovImm f) s = execTMovImm f s := rfl
theorem exec_tCmpImm (f : T3) (s : State) : exec (.tCmpImm f) s = execTCmpImm f s := rfl
theorem exec_tAddImm8 (f : T3) (s : State) : exec (.tAddImm8 f) s = execTAddImm8 f s := rfl
theorem exec_tSubImm8 (f : T3) (s : State) : exec (.tSubImm8 f) s = execTSubImm8 f s := rfl
theorem exec_tAnd (f : T4) (s : State) : exec (.tAnd f) s = execTAnd f s := rfl
theorem exec_tEor (f : T4) (s : State) : exec (.tEor f) s = execTEor f s := rfl
theorem exec_tLslReg (f : T4) (s : State) : exec (.tLslReg f) s = execTLslReg f s := rfl
theorem exec_tLsrReg (f : T4) (s : State) : exec (.tLsrReg f) s = execTLsrReg f s := rfl
theorem exec_tAsrReg (f : T4) (s : State) : exec (.tAsrReg f) s = execTAsrReg f s := rfl
theorem exec_tAdc (f : T4) (s : State) : exec (.tAdc f) s = execTAdc f s := rfl
theorem exec_tSbc (f : T4) (s : State) : exec (.tSbc f) s = execTSbc f s := rfl
theorem exec_tRorReg (f : T4) (s : State) : exec (.tRorReg f) s = execTRorReg f s := rfl
theorem exec_tTst (f : T4) (s : State) : exec (.tTst f) s = execTTst f s := rfl
theorem exec_tNeg (f : T4) (s : State) : exec (.tNeg f) s = execTNeg f s := rfl
theorem exec_tCmp (f : T4) (s : State) : exec (.tCmp f) s = execTCmp f s := rfl
theorem exec_tCmn (f : T4) (s : State) : exec (.tCmn f) s = execTCmn f s := rfl
theorem exec_tOrr (f : T4) (s : State) : exec (.tOrr f) s = execTOrr f s := rfl
theorem exec_tMul (f : T4) (s : State) : exec (.tMul f) s = execTMul f s := rfl
theorem exec_tBic (f : T4) (s : State) : exec (.tBic f) s = execTBic f s := rfl
theorem exec_tMvn (f : T4) (s : State) : exec (.tMvn f) s = execTMvn f s := rfl
theorem exec_tAddHi (f : T5) (s : State) : exec (.tAddHi f) s = execTAddHi f s := rfl
theorem exec_tCmpHi (f : T5) (s : State) : exec (.tCmpHi f) s = execTCmpHi f s := rfl
theorem exec_tMovHi (f : T5) (s : State) : exec (.tMovHi f) s = execTMovHi f s := rfl
theorem exec_tBx (f : T5Bx) (s : State) : exec (.tBx f) s = execTBx f s := rfl
theorem exec_tLdrPc (f : T6) (s : State) : exec (.tLdrPc f) s = execTLdrPc f s := rfl
theorem exec_tStrReg (f : T7) (s : State) : exec (.tStrReg f) s = execTStrReg f s := rfl
theorem exec_tStrbReg (f : T7) (s : State) : exec (.tStrbReg f) s = execTStrbReg f s := rfl
theorem exec_tLdrReg (f : T7) (s : State) : exec (.tLdrReg f) s = execTLdrReg f s := rfl
theorem exec_tLdrbReg (f : T7) (s : State) : exec (.tLdrbReg f) s = execTLdrbReg f s := rfl
theorem exec_tStrhReg (f : T7) (s : State) : exec (.tStrhReg f) s = execTStrhReg f s := rfl
theorem exec_tLdrhReg (f : T7) (s : State) : exec (.tLdrhReg f) s = execTLdrhReg f s := rfl
theorem exec_tLdsb (f : T7) (s : State) : exec (.tLdsb f) s = execTLdsb f s := rfl
theorem exec_tLdsh (f : T7) (s : State) : exec (.tLdsh f) s = execTLdsh f s := rfl
theorem exec_tStrImm (f : T9) (s : State) : exec (.tStrImm f) s = execTStrImm f s := rfl
theorem exec_tLdrImm (f : T9) (s : State) : exec (.tLdrImm f) s = execTLdrImm f s := rfl
theorem exec_tStrbImm (f : T9) (s : State) : exec (.tStrbImm f) s = execTStrbImm f s := rfl
theorem exec_tLdrbImm (f : T9) (s : State) : exec (.tLdrbImm f) s = execTLdrbImm f s := rfl
theorem exec_tStrhImm (f : T9) (s : State) : exec (.tStrhImm f) s = execTStrhImm f s := rfl
theorem exec_tLdrhImm (f : T9) (s : State) : exec (.tLdrhImm f) s = execTLdrhImm f s := rfl
theorem exec_tStrSp (f : T6) (s : State) : exec (.tStrSp f) s = execTStrSp f s := rfl
theorem exec_tLdrSp (f : T6) (s : State) : exec (.tLdrSp f) s = execTLdrSp f s := rfl
theorem exec_tAddPc (f : T6) (s : State) : exec (.tAddPc f) s = execTAddPc f s := rfl
theorem exec_tAddSp (f : T6) (s : State) : exec (.tAddSp f) s = execTAddSp f s := rfl
theorem exec_tAddToSp (f : T13) (s : State) : exec (.tAddToSp f) s = execTAddToSp f s := rfl
theorem exec_tSubFromSp (f : T13) (s : State) : exec (.tSubFromSp f) s = execTSubFromSp f s := rfl
theorem exec_tPush (f : T14) (s : State) : exec (.tPush f) s = execTPush f s := rfl
theorem exec_tPop (f : T14) (s : State) : exec (.tPop f) s = execTPop f s := rfl
theorem exec_tStmia (f : T15) (s : State) : exec (.tStmia f) s = execTStmia f s := rfl
theorem exec_tLdmia (f : T15) (s : State) : exec (.tLdmia f) s = execTLdmia f s := rfl
theorem exec_tBEq (f : T16) (s : State) : exec (.tBEq f) s = execTBEq f s := rfl
theorem exec_tBNe (f : T16) (s : State) : exec (.tBNe f) s = execTBNe f s := rfl
theorem exec_tBCs (f : T16) (s : State) : exec (.tBCs f) s = execTBCs f s := rfl
theorem exec_tBCc (f : T16) (s : State) : exec (.tBCc f) s = execTBCc f s := rfl
theorem exec_tBMi (f : T16) (s : State) : exec (.tBMi f) s = execTBMi f s := rfl
theorem exec_tBPl (f : T16) (s : State) : exec (.tBPl f) s = execTBPl f s := rfl
theorem exec_tBVs (f : T16) (s : State) : exec (.tBVs f) s = execTBVs f s := rfl
theorem exec_tBVc (f : T16) (s : State) : exec (.tBVc f) s = execTBVc f s := rfl
theorem exec_tBHi (f : T16) (s : State) : exec (.tBHi f) s = execTBHi f s := rfl
theorem exec_tBLs (f : T16) (s : State) : exec (.tBLs f) s = execTBLs f s := rfl
theorem exec_tBGe (f : T16) (s : State) : exec (.tBGe f) s = execTBGe f s := rfl
theorem exec_tBLt (f : T16) (s : State) : exec (.tBLt f) s = execTBLt f s := rfl
theorem exec_tBGt (f : T16) (s : State) : exec (.tBGt f) s = execTBGt f s := rfl
theorem exec_tBLe (f : T16) (s : State) : exec (.tBLe f) s = execTBLe f s := rfl
theorem exec_tSwi (f : T16) (s : State) : exec (.tSwi f) s = execTSwi f s := rfl
theorem exec_tB (f : T18) (s : State) : exec (.tB f) s = execTB f s := rfl
theorem exec_tBlHi (f : T18) (s : State) : exec (.tBlHi f) s = execTBlHi f s := rfl
theorem exec_tBlLo (f : T18) (s : State) : exec (.tBlLo f) s = execTBlLo f s := rfl

end Sys2Proof.Machine
end

