-- ==== Sys2Proof/Laws/Frames.lean ====
section
/-! SUPPORT. What the shared operations of the meanings can do, said once for each: the refill and the writes of the pc, an
exception, a transfer, a handler's call. A proof about an instruction cites these and unfolds none of them. -/

namespace Sys2Proof.Machine

/-! ### Fetch and refill (spec/40_fetch_decode_dispatch.md R165, R170) -/

/-- What a fetch cannot change: all but memory, the fault mark, the slots, the counters, the queue, the lines, the stop flag
and the regions' scripts. -/
structure FetchFrame (s t : State) : Prop where
  regs : t.regs = s.regs
  pc : t.pc = s.pc
  cpsr : t.cpsr = s.cpsr
  spsr : t.spsr = s.spsr
  inted : t.inted = s.inted
  lastInted : t.lastInted = s.lastInted
  acc : t.acc = s.acc
  coproc : t.coproc = s.coproc
  params : t.params = s.params
  freeCount : t.freeCount = s.freeCount
  reseted : t.fault.reseted = s.fault.reseted
  catchMask : t.dbg.catchMask = s.dbg.catchMask
  stepBudget : t.dbg.stepBudget = s.dbg.stepBudget
  halt : t.dbg.halt = s.dbg.halt
  clears : t.collab.clearsAborted = s.collab.clearsAborted
  callbacks : t.collab.callbacks = s.collab.callbacks
  breakpoints : t.collab.breakpoints = s.collab.breakpoints
  hook : t.collab.hook = s.collab.hook

theorem AccessFrame.fetch {s t : State} (h : AccessFrame s t) : FetchFrame s t := by cases h; constructor <;> assumption

theorem FetchFrame.refl (s : State) : FetchFrame s s := (AccessFrame.refl s).fetch

theorem FetchFrame.trans {s t u : State} (h : FetchFrame s t) (k : FetchFrame t u) : FetchFrame s u := by
  constructor
  · exact k.regs.trans h.regs
  · exact k.pc.trans h.pc
  · exact k.cpsr.trans h.cpsr
  · exact k.spsr.trans h.spsr
  · exact k.inted.trans h.inted
  · exact k.lastInted.trans h.lastInted
  · exact k.acc.trans h.acc
  · exact k.coproc.trans h.coproc
  · exact k.params.trans h.params
  · exact k.freeCount.trans h.freeCount
  · exact k.reseted.trans h.reseted
  · exact k.catchMask.trans h.catchMask
  · exact k.stepBudget.trans h.stepBudget
  · exact k.halt.trans h.halt
  · exact k.clears.trans h.clears
  · exact k.callbacks.trans h.callbacks
  · exact k.breakpoints.trans h.breakpoints
  · exact k.hook.trans h.hook

theorem fetch_frame (a : Word) (s : State) : FetchFrame s (fetch a s).2 :=
  ((countAccess_frame _ 1 s).trans (access_frame ..).access).fetch.trans (by constructor <;> rfl)

/-- A fetch leaves the slots alone and records its address. -/
theorem fetch_pipe (a : Word) (s : State) :
    (fetch a s).2.pipe = { s.pipe with lastFetch := { valid := true, addr := a, size := isz s } } := by
  have h := ((countAccess_frame (fetchClass a s.pipe.lastFetch) 1 s).trans
    (access_frame (fetchClass a s.pipe.lastFetch) .fetch (fetchSize s) a none _).access).pipe
  simp only [fetch]
  rw [h]

/-- A fetch charges one cycle, of the class its address has. -/
theorem fetch_ctr (a : Word) (s : State) :
    (fetch a s).2.ctr = (countAccess (fetchClass a s.pipe.lastFetch) 1 s).ctr :=
  (access_frame (fetchClass a s.pipe.lastFetch) .fetch (fetchSize s) a none _).ctr

/-- A slot filled in Thumb state holds a halfword (spec/10_state.md R47). -/
theorem fetch_half (a : Word) {s : State} (h : s.cpsr.t = true) : (fetch a s).1.word.toNat < 65536 := by
  have hw : ∀ x : BitVec 16, (x.setWidth 32 : Word).toNat < 65536 := by
    intro x; rw [BitVec.toNat_setWidth]; exact Nat.lt_of_le_of_lt (Nat.mod_le _ _) x.isLt
  simp only [fetch, fetchSize, h, if_true, access, answered]
  split
  · exact hw _
  · exact hw _

theorem flush_frame (s : State) : FetchFrame s (flush s) := by constructor <;> rfl

theorem refill_frame (s : State) : FetchFrame s (refill s) := by
  have h1 := (flush_frame s).trans (fetch_frame s.pc (flush s))
  have h2 : FetchFrame s { (fetch s.pc (flush s)).2 with
      pipe := { (fetch s.pc (flush s)).2.pipe with decoded := (fetch s.pc (flush s)).1 } } :=
    h1.trans (by constructor <;> rfl)
  exact (h2.trans (fetch_frame (s.pc + isz s) _)).trans (by constructor <;> rfl)

/-- After a refill the slots are valid and the latest fetch was from pc + isz. -/
theorem refill_pipe (s : State) :
    (refill s).pipe.valid = true ∧
      (refill s).pipe.lastFetch = { valid := true, addr := s.pc + isz s, size := isz s } := by
  have h1 := (flush_frame s).trans (fetch_frame s.pc (flush s))
  refine ⟨rfl, ?_⟩
  simp only [refill, fetch_pipe]
  simp only [isz, h1.cpsr]

/-- After a refill in Thumb state both slots hold halfwords. -/
theorem refill_half {s : State} (h : s.cpsr.t = true) :
    (refill s).pipe.decoded.word.toNat < 65536 ∧ (refill s).pipe.loaded.word.toNat < 65536 := by
  have h1 := (flush_frame s).trans (fetch_frame s.pc (flush s))
  constructor
  · simp only [refill, fetch_pipe]
    exact fetch_half _ h
  · exact fetch_half _ (by simpa [h1.cpsr] using h)

/-- A refill charges one N and one S (R170). -/
theorem refill_ctr (s : State) : (refill s).ctr = charge 1 1 0 0 s.ctr := by
  have hp := fetch_pipe s.pc (flush s)
  have hi : isz (flush s) = isz s := rfl
  simp only [refill, fetch_ctr, hp, hi, fetchClass_next, countAccess]
  rfl

/-- A branch is a write of the aligned pc and a refill. -/
theorem branchTo_frame (v : Word) (s : State) : FetchFrame { s with pc := alignPc s.cpsr.t v } (branchTo v s) :=
  refill_frame _

/-! ### Exceptions (spec/60_exceptions.md R470, R474, R511) -/

/-- An exception raised inside an instruction is entered, or caught: the slots are invalid and the mark set. -/
theorem raise_cases {e : Exc} {s t : State} (h : raise e s = .next t) :
    (caught e s = false ∧ t = enter true e s) ∨
      (caught e s = true ∧
        t = caughtInline e s) := by
  unfold raise raiseState at h
  cases h
  split
  · rename_i hc; exact .inr ⟨hc, rfl⟩
  · rename_i hc; exact .inl ⟨by simpa using hc, rfl⟩

/-- What a trap does: the entry after the row's cycles, or the debugger's stop. -/
theorem trap_cases {e : Exc} {s t : State} (h : trap e s = .next t) :
    (caught e s = false ∧ t = enter true e (charges s.params.cycles.trap s)) ∨ (caught e s = true ∧ t = caughtInline e s) := by
  unfold trap at h
  cases h
  split
  · rename_i hc; exact .inr ⟨hc, rfl⟩
  · rename_i hc; exact .inl ⟨by simpa using hc, rfl⟩

/-- The entry of every kind but Reset, in the terms of the statements. -/
theorem enter_eq (inline : Bool) {e : Exc} (h : e ≠ .reset) (s : State) :
    enter inline e s = entered e.mode e.vector (returnValue inline e s) (s.cpsr.f || e == .fiq) s := by
  cases e
  · exact absurd rfl h
  all_goals simp [enter, saveReturn, entered, branchTo, Exc.mode, Exc.vector, vectorBase, Exc.index, alignPc]

/-- An exception return that answers a next state had an SPSR that holds a legal mode, and is a branch under the status it
restores. -/
theorem exceptionReturn_cases {v : Word} {s t : State} (h : exceptionReturn v s = .next t) :
    ∃ p, s.cpsr.m.hasSpsr = true ∧ psrOfWord s.spsr[s.cpsr.m.bank] = some p ∧ aligned p.t v = true ∧
      t = branchTo v { s with cpsr := p } := by
  unfold exceptionReturn spsrOf at h
  split at h
  · cases h
  · rename_i w hw
    split at hw
    · rename_i hs
      cases hw
      split at h
      · cases h
      · rename_i p hp
        obtain ⟨ha, rfl⟩ := jump_cases h
        exact ⟨p, hs, hp, ha, rfl⟩
    · cases hw

/-- BX that answers a next state sets T from bit 0 and branches. -/
theorem branchExchange_cases {v : Word} {s t : State} (h : branchExchange v s = .next t) :
    ¬ (v.getLsbD 0 = false ∧ v.getLsbD 1 = true) ∧
      t = branchTo v { s with cpsr := { s.cpsr with t := v.getLsbD 0 } } := by
  unfold branchExchange at h
  split at h
  · cases h
  · rename_i hn; cases h; exact ⟨hn, rfl⟩

/-- The end of a data-processing operation with a destination. -/
theorem writeResult_cases {b : Bool} {rd : RegNum} {r : AluOut} {s t : State} (h : writeResult b rd r s = .next t) :
    (rd = 15#4 ∧ b = true ∧ exceptionReturn r.value s = .next t) ∨
    (rd = 15#4 ∧ b = false ∧ aligned s.cpsr.t r.value = true ∧ t = branchTo r.value s) ∨
    (rd ≠ 15#4 ∧ t = forward (if b then setFlags r (writeReg s rd r.value) else writeReg s rd r.value)) := by
  unfold writeResult at h
  split at h
  · rename_i hd
    split at h
    · rename_i hb; exact .inl ⟨hd, hb, h⟩
    · rename_i hb
      obtain ⟨ha, rfl⟩ := jump_cases h
      exact .inr (.inl ⟨hd, by simpa using hb, ha, rfl⟩)
  · rename_i hd
    exact .inr (.inr ⟨hd, advance_cases h⟩)

/-! ### Transfers (spec/45_arm_load_store.md R283; spec/46_arm_block_transfer.md R319) -/

/-- A load that answers a next state took the Data Abort after its access, or wrote the base and the destination. -/
theorem loadReg_cases {op : LoadOp} {rd : RegNum} {a : Word} {wb : Option (RegNum × Word)} {s t : State}
    (h : loadReg op rd a wb s = .next t) :
    oddHalf op.size a = false ∧
      ((∃ s1, memRead .n op.size a s = .abort s1 ∧ t = raiseState .dataAbort s1) ∨
        ∃ w s1, memRead .n op.size a s = .ok w s1 ∧ finishLoad rd wb (op.value a w) s1 = .next t) := by
  unfold loadReg at h
  split at h
  · cases h
  · rename_i ho
    refine ⟨by simpa using ho, ?_⟩
    split at h
    · rename_i s1 he; cases h; exact .inl ⟨s1, he, rfl⟩
    · rename_i w s1 he; exact .inr ⟨w, s1, he, h⟩

/-- The end of a load is a branch, or the write of the destination. -/
theorem finishLoad_cases {rd : RegNum} {wb : Option (RegNum × Word)} {data : Word} {s t : State}
    (h : finishLoad rd wb data s = .next t) :
    (rd = 15#4 ∧ t = branchTo data (writeBack wb (charges s.params.cycles.load s))) ∨
      (rd ≠ 15#4 ∧ t = forward (writeReg (writeBack wb (charges s.params.cycles.load s)) rd data)) := by
  unfold finishLoad at h
  simp only [] at h
  split at h
  · rename_i hd; exact .inl ⟨hd, (jump_cases h).2⟩
  · rename_i hd; exact .inr ⟨hd, advance_cases h⟩

/-- A store that answers a next state took the Data Abort after its access, or wrote the base and advanced. -/
theorem storeReg_cases {sz : Size} {rd : RegNum} {a : Word} {wb : Option (RegNum × Word)} {s t : State}
    (h : storeReg sz rd a wb s = .next t) :
    oddHalf sz a = false ∧
      ((∃ s1, memWrite .n sz a (storeValue s rd) s = .abort s1 ∧ t = raiseState .dataAbort s1) ∨
        ∃ s1, memWrite .n sz a (storeValue s rd) s = .ok () s1 ∧ t = forward (writeBack wb (charges s1.params.cycles.store s1))) := by
  unfold storeReg at h
  split at h
  · cases h
  · rename_i ho
    refine ⟨by simpa using ho, ?_⟩
    split at h
    · rename_i s1 he; cases h; exact .inl ⟨s1, he, rfl⟩
    · rename_i s1 he; exact .inr ⟨s1, he, advance_cases h⟩

/-- A block load that answers a next state took the Data Abort after its reads, or went on with the words. -/
theorem loadWords_cases {n : Nat} {a : Word} {k : List Word → State → Out} {s t : State}
    (h : loadWords n a k s = .next t) :
    (∃ s1, readWords n .n a s = .abort s1 ∧ t = raiseState .dataAbort s1) ∨
      ∃ ws s1, readWords n .n a s = .ok ws s1 ∧ ws.length = n ∧ k ws s1 = .next t := by
  unfold loadWords at h
  split at h
  · rename_i s1 he; cases h; exact .inl ⟨s1, he, rfl⟩
  · rename_i ws s1 he; exact .inr ⟨ws, s1, he, readWords_length he, h⟩

/-- A block store that answers a next state took the Data Abort after its writes, or went on. -/
theorem storeWords_cases {ws : List Word} {a : Word} {k : State → Out} {s t : State}
    (h : storeWords ws a k s = .next t) :
    (∃ s1, writeWords ws .n a s = .abort s1 ∧ t = raiseState .dataAbort s1) ∨
      ∃ s1, writeWords ws .n a s = .ok () s1 ∧ k s1 = .next t := by
  unfold storeWords at h
  split at h
  · rename_i s1 he; cases h; exact .inl ⟨s1, he, rfl⟩
  · rename_i s1 he; exact .inr ⟨s1, he, h⟩

/-! ### Coprocessor handlers (spec/47_arm_coprocessor_swi_undefined.md R321 to R323) -/

/-- What a handler's call cannot change (R321): the record of the call and a free value drawn are the model's own. -/
structure HandlerFrame (s t : State) : Prop where
  regs : t.regs = s.regs
  pc : t.pc = s.pc
  cpsr : t.cpsr = s.cpsr
  spsr : t.spsr = s.spsr
  inted : t.inted = s.inted
  lastInted : t.lastInted = s.lastInted
  pipe : t.pipe = s.pipe
  ctr : t.ctr = s.ctr
  mem : t.mem = s.mem
  params : t.params = s.params
  collab : t.collab = s.collab
  reseted : t.fault.reseted = s.fault.reseted
  resetReq : t.lines.resetReq = s.lines.resetReq
  catchMask : t.dbg.catchMask = s.dbg.catchMask
  stepBudget : t.dbg.stepBudget = s.dbg.stepBudget
  halt : t.dbg.halt = s.dbg.halt

theorem HandlerFrame.refl (s : State) : HandlerFrame s s := by constructor <;> rfl

theorem HandlerFrame.trans {s t u : State} (h : HandlerFrame s t) (k : HandlerFrame t u) : HandlerFrame s u := by
  constructor
  · exact k.regs.trans h.regs
  · exact k.pc.trans h.pc
  · exact k.cpsr.trans h.cpsr
  · exact k.spsr.trans h.spsr
  · exact k.inted.trans h.inted
  · exact k.lastInted.trans h.lastInted
  · exact k.pipe.trans h.pipe
  · exact k.ctr.trans h.ctr
  · exact k.mem.trans h.mem
  · exact k.params.trans h.params
  · exact k.collab.trans h.collab
  · exact k.reseted.trans h.reseted
  · exact k.resetReq.trans h.resetReq
  · exact k.catchMask.trans h.catchMask
  · exact k.stepBudget.trans h.stepBudget
  · exact k.halt.trans h.halt

/-- What a handler computes depends on the registers, the status registers, the pc and the slots' validity, the accumulator, the
clock and the parameters alone (R321). -/
structure SameRead (s t : State) : Prop where
  regs : t.regs = s.regs
  pc : t.pc = s.pc
  cpsr : t.cpsr = s.cpsr
  spsr : t.spsr = s.spsr
  valid : t.pipe.valid = s.pipe.valid
  acc : t.acc = s.acc
  now : t.ctr.now = s.ctr.now
  params : t.params = s.params

theorem HandlerWord.eval_congr {s t : State} (h : SameRead s t) (call : HandlerCall) (w : HandlerWord) :
    w.eval call t = w.eval call s := by
  induction w with
  | reg m n => simp only [eval, regOf, getPc, readBank, readPc, isz, h.regs, h.pc, h.cpsr, h.valid, h.params]
  | spsr m => simp only [eval, h.spsr]
  | cpsr => simp only [eval, h.cpsr]
  | accLow => simp only [eval, h.acc]
  | accHigh => simp only [eval, h.acc]
  | time => simp only [eval, h.now]
  | op f a b iha ihb => simp only [eval, iha, ihb]
  | _ => rfl

theorem Choice.pick_congr {α : Type} {s t : State} (h : SameRead s t) (call : HandlerCall) (c : Choice α) :
    c.pick call t = c.pick call s := by
  induction c with
  | leaf => rfl
  | ifEq x y yes no ihy ihn => simp only [pick, HandlerWord.eval_congr h, ihy, ihn]

theorem performHandler_handler (call : HandlerCall) (s : State) (a : HandlerAction) :
    HandlerFrame s (performHandler call s a) := by
  cases a with
  | act a => cases a <;> constructor <;> rfl
  | abort addr => simp only [performHandler, abortCall]; split <;> constructor <;> rfl
  | setAcc => constructor <;> rfl

theorem performs_handler (call : HandlerCall) (l : List HandlerAction) (s : State) :
    HandlerFrame s (l.foldl (performHandler call) s) := by
  induction l generalizing s with
  | nil => exact .refl s
  | cons a l ih => exact (performHandler_handler call s a).trans (ih _)

theorem callHandler_frame (cp : BitVec 4) (h : Handler) (call : HandlerCall) (s : State) :
    HandlerFrame s (callHandler cp h call s).state := by
  unfold callHandler
  simp only []
  split
  · constructor <;> rfl
  · split
    · constructor <;> rfl
    · exact HandlerFrame.trans (by constructor <;> rfl) (performs_handler ..)
    · exact HandlerFrame.trans (by constructor <;> rfl) (performs_handler ..)

theorem callData_frame (cp : BitVec 4) (call : HandlerCall) (s : State) : HandlerFrame s (callData cp call s).2 := by
  unfold callData
  split
  · exact .refl s
  · simp only []
    split
    · constructor <;> rfl
    · exact HandlerFrame.trans (by constructor <;> rfl) (performs_handler ..)

theorem giveWords_frame (cp : BitVec 4) (instr : Word) (k : Nat) (ws : List Word) (s : State) :
    HandlerFrame s (giveWords cp instr k ws s) := by
  induction ws generalizing k s with
  | nil => exact .refl s
  | cons w ws ih => exact (callData_frame _ _ _).trans (ih _ _)

/-- A coprocessor instruction that answers a next state raised Undefined, met a fault, or was handled. -/
theorem withHandler_cases {cp : BitVec 4} {call : HandlerCall} {k : CoprocAnswer → Out} {s t : State}
    (h : withHandler cp call k s = .next t) :
    (s.coproc[cp.toFin] = .unbound ∧ t = raiseState .undefined s) ∨
    ∃ hd, s.coproc[cp.toFin] = .bound hd ∧
      (((callHandler cp hd call s).result = .notHandled ∧ t = raiseState .undefined (callHandler cp hd call s).state) ∨
      ((callHandler cp hd call s).result = .faultTriggered ∧ faultTriggered (callHandler cp hd call s).state = .next t) ∨
      ((callHandler cp hd call s).result = .handled ∧ k (callHandler cp hd call s) = .next t)) := by
  unfold withHandler at h
  split at h
  · rename_i hu; cases h; exact .inl ⟨hu, rfl⟩
  · rename_i hd hb
    refine .inr ⟨hd, hb, ?_⟩
    simp only [] at h
    split at h
    · rename_i hr; cases h; exact .inl ⟨hr, rfl⟩
    · rename_i hr; exact .inr (.inl ⟨hr, h⟩)
    · rename_i hr; exact .inr (.inr ⟨hr, h⟩)

/-- A fault-triggered answer that answers a next state took the Data Abort or only advanced. -/
theorem faultTriggered_cases {s t : State} (h : faultTriggered s = .next t) :
    (s.fault.aborted = some .data ∧ t = raiseState .dataAbort s) ∨ (s.fault.aborted ≠ some .data ∧ t = forward s) := by
  unfold faultTriggered at h
  split at h
  · rename_i ha; cases h; exact .inl ⟨ha, rfl⟩
  · rename_i ha; exact .inr ⟨ha, advance_cases h⟩

end Sys2Proof.Machine
end

