-- ==== Sys2Proof/Laws/Steps.lean ====
section
/-! SUPPORT. What a step can do, said once: its cases, the event pass, and the canonical form of memory and the order of the
event queue through every operation that a collaborator or an access takes part in. -/

namespace Sys2Proof.Machine

/-! ### The cases of a step (spec/40_fetch_decode_dispatch.md R160) -/

/-- A boundary that answers a next state caught the pending exception, which changes no state, or entered it, or ran an
instruction, both of these with the slots filled. -/
theorem boundary_cases {s t : State} (h : boundary s = .next t) :
    let s1 := ensureSlots (clearHalt s)
    (∃ e, pendingException s1 = some e ∧ caught e s1 = true ∧ t = halted (.caught e) s) ∨
    (∃ e, pendingException s1 = some e ∧ caught e s1 = false ∧ t = enter false e s1) ∨
    (pendingException s1 = none ∧ ∃ u,
      execDecoded (decodeWord s1.cpsr.t s1.pipe.decoded.word) (prepare s1) = .next u ∧ t = retire u) := by
  unfold boundary at h
  simp only [] at h ⊢
  split at h
  · rename_i e he
    split at h
    · rename_i hc; cases h; exact .inl ⟨e, he, hc, rfl⟩
    · rename_i hc; cases h; exact .inr (.inl ⟨e, he, by simpa using hc, rfl⟩)
  · rename_i hn
    unfold instructionStep at h
    split at h
    · rename_i u hu; cases h; exact .inr (.inr ⟨hn, u, hu, rfl⟩)
    · cases h
    · cases h

/-- A step that answers a next state halted, or went on from the boundary. -/
theorem step_cases {s t : State} (h : step s = .next t) :
    (∃ r, haltAsked s = some r ∧ t = halted r s) ∨ (haltAsked s = none ∧ boundary s = .next t) := by
  unfold step at h
  split at h
  · rename_i r hr; cases h; exact .inl ⟨r, hr, rfl⟩
  · rename_i hn; exact .inr ⟨hn, h⟩

/-! ### What precedes the instruction (spec/40_fetch_decode_dispatch.md R164, R166) -/

/-- The state in which a step makes its own fetch: the budget counted, the debug hook called, the slots moved on. -/
def beforeFetch (s : State) : State :=
  let s1 := debugHook s.pc s.pipe.decoded.word (spendBudget s)
  { s1 with pipe := { s1.pipe with decoded := s1.pipe.loaded } }

theorem prepare_eq (s : State) : prepare s =
    { (fetch (readPc s) (beforeFetch s)).2 with
      pipe := { (fetch (readPc s) (beforeFetch s)).2.pipe with loaded := (fetch (readPc s) (beforeFetch s)).1 } } := rfl

/-- What precedes the instruction in a step changes no register, no status and not the pc. -/
theorem prepare_frame (s : State) : FetchFrame (beforeFetch s) (prepare s) :=
  (fetch_frame (readPc s) (beforeFetch s)).trans (by constructor <;> rfl)

/-- The slots move on, and the step's own fetch fills the second (R166). -/
theorem prepare_pipe (s : State) : (prepare s).pipe = {
    decoded := s.pipe.loaded
    loaded := (fetch (readPc s) (beforeFetch s)).1
    valid := s.pipe.valid
    lastFetch := { valid := true, addr := readPc s, size := isz s } } := by
  rw [prepare_eq, fetch_pipe]; rfl

/-- One cycle is charged, of the class of the fetch. -/
theorem prepare_ctr (s : State) : (prepare s).ctr = (countAccess (fetchClass (readPc s) s.pipe.lastFetch) 1 s).ctr := by
  rw [prepare_eq]
  show (fetch (readPc s) (beforeFetch s)).2.ctr = _
  rw [fetch_ctr]
  show (countAccess (fetchClass (readPc s) s.pipe.lastFetch) 1 (beforeFetch s)).ctr = _
  cases fetchClass (readPc s) s.pipe.lastFetch <;> rfl

/-- A quiet fetch leaves memory and fills the slot from it. -/
theorem prepare_quiet {s : State} (h : QuietAt .fetch (fetchSize s) (readPc s) s) :
    (prepare s).mem = s.mem ∧
      (prepare s).pipe.loaded = { word := portLoad s.mem (fetchSize s) (readPc s), pabort := false } := by
  have hq : QuietAt .fetch (fetchSize (beforeFetch s)) (readPc s) (beforeFetch s) := h
  rw [prepare_eq, fetch_quiet hq]
  refine ⟨?_, rfl⟩
  simp only []
  cases fetchClass (readPc s) (beforeFetch s).pipe.lastFetch <;> rfl

/-- A decoded word that answers a next state ran its instruction, or was undefined: its condition failed, or it raised
Undefined. -/
theorem execDecoded_cases {d : Decoded} {s t : State} (h : execDecoded d s = .next t) :
    (∃ i, d = .instr i ∧ exec i s = .next t) ∨ t = forward s ∨ trap .undefined s = .next t := by
  cases d with
  | instr i => exact .inl ⟨i, rfl, h⟩
  | undefined c =>
    cases c with
    | none => exact .inr (.inr h)
    | some c =>
      have h : guarded c none (trap .undefined) s = .next t := h
      rcases guarded_cases h with ⟨-, ha⟩ | ⟨-, -, hb⟩
      · exact .inr (.inl (advance_cases ha))
      · exact .inr (.inr hb)
  | nearMatch c =>
    cases c with
    | none => cases h
    | some c =>
      have h : guarded c none (fun _ => .refused .nearMatch) s = .next t := h
      rcases guarded_cases h with ⟨-, ha⟩ | ⟨-, -, hb⟩
      · exact .inr (.inl (advance_cases ha))
      · cases hb
  | never => cases h

/-! ### Events (spec/60_exceptions.md R501, R503) -/

theorem performCallback_frame (s : State) (a : CallbackAction) : CollabFrame s (performCallback s a) := by
  cases a with
  | act a => exact perform_frame s a
  | write => constructor <;> rfl
  | abort a => exact abortCall_frame .data a s
  | setReset => constructor <;> rfl

theorem invoke_frame (c : Nat) (s : State) : CollabFrame s (invoke c s) :=
  CollabFrame.foldl performCallback performCallback_frame _ s

theorem fire_frame (s : State) (h : Nat) : CollabFrame s (fire s h) := by
  unfold fire
  split
  · exact CollabFrame.trans (by constructor <;> rfl) (invoke_frame _ _)
  · exact .refl s

/-- An event pass changes what callbacks may change, and the queue. -/
theorem eventPass_frame (s : State) : CollabFrame s (eventPass s) := CollabFrame.foldl fire fire_frame _ s

/-! ### The canonical memory and the queue -/

/-- Memory is canonical and the queue in order: what no operation breaks. -/
def Sound (s : State) : Prop := s.mem.wf = true ∧ eventsOk s.sched = true

/-- Only memory and the queue count. -/
theorem Sound.congr {s t : State} (h : Sound s) (hm : t.mem = s.mem) (hq : t.sched = s.sched) : Sound t := by
  unfold Sound; rw [hm, hq]; exact h

/-- The queue's order as a proposition. -/
theorem eventsOk_iff (q : Scheduler) : eventsOk q = true ↔
    (q.events.Pairwise fun a b => a.trigger ≤ b.trigger ∧ a.handle ≠ b.handle) ∧
      ∀ n ∈ q.events, n.handle < q.nextHandle := by
  simp [eventsOk]

theorem mem_insertEvent (n x : EventNode) (l : List EventNode) : x ∈ insertEvent n l ↔ x = n ∨ x ∈ l := by
  induction l with
  | nil => simp [insertEvent]
  | cons m l ih =>
    unfold insertEvent
    split
    · simp only [List.mem_cons, ih]; tauto
    · simp only [List.mem_cons]

/-- Inserting a node with a new handle keeps the order (R496). -/
theorem pairwise_insertEvent (n : EventNode) (l : List EventNode)
    (h : l.Pairwise fun a b => a.trigger ≤ b.trigger ∧ a.handle ≠ b.handle) (hn : ∀ m ∈ l, m.handle < n.handle) :
    (insertEvent n l).Pairwise fun a b => a.trigger ≤ b.trigger ∧ a.handle ≠ b.handle := by
  induction l with
  | nil => simp [insertEvent]
  | cons m l ih =>
    rw [List.pairwise_cons] at h
    have hm := hn m List.mem_cons_self
    unfold insertEvent
    split
    · rename_i ht
      rw [List.pairwise_cons]
      refine ⟨fun x hx => ?_, ih h.2 fun y hy => hn y (List.mem_cons_of_mem _ hy)⟩
      rcases (mem_insertEvent n x l).1 hx with rfl | hx
      · exact ⟨ht, by omega⟩
      · exact h.1 x hx
    · rename_i ht
      rw [List.pairwise_cons]
      refine ⟨fun x hx => ?_, List.pairwise_cons.2 h⟩
      rcases List.mem_cons.1 hx with rfl | hx
      · exact ⟨by omega, by omega⟩
      · have := (h.1 x hx).1
        have := hn x (List.mem_cons_of_mem _ hx)
        exact ⟨by omega, by omega⟩

theorem schedule_sound (d c : Nat) {s : State} (h : Sound s) : Sound (schedule d c s).2 := by
  obtain ⟨hm, hq⟩ := h
  rw [eventsOk_iff] at hq
  refine ⟨hm, (eventsOk_iff _).2 ⟨pairwise_insertEvent _ _ hq.1 hq.2, fun x hx => ?_⟩⟩
  show x.handle < s.sched.nextHandle + 1
  rcases (mem_insertEvent _ x _).1 hx with rfl | hx
  · simp
  · have := hq.2 x hx; omega

theorem cancel_sound (k : Nat) {s : State} (h : Sound s) : Sound (cancel k s) := by
  obtain ⟨hm, hq⟩ := h
  rw [eventsOk_iff] at hq
  exact ⟨hm, (eventsOk_iff _).2 ⟨hq.1.filter _, fun x hx => hq.2 x (List.mem_filter.1 hx).1⟩⟩

theorem perform_sound (a : Action) {s : State} (h : Sound s) : Sound (perform s a) := by
  cases a with
  | schedule d c => exact schedule_sound d c h
  | cancel n => exact cancel_sound n h
  | _ => exact h.congr rfl rfl

theorem poke_sound (a : Word) (b : Byte) {s : State} (h : Sound s) : Sound (poke a b s) := ⟨wf_memSet h.1 a b, h.2⟩

theorem abortCall_sound (k : AbortKind) (a : Word) {s : State} (h : Sound s) : Sound (abortCall k a s) := by
  unfold abortCall; split
  · exact h.congr rfl rfl
  · exact h

/-- A fold of steps that are sound is sound. -/
theorem foldl_sound {α : Type} (g : State → α → State) (hg : ∀ a s, Sound s → Sound (g s a)) (l : List α) {s : State}
    (h : Sound s) : Sound (l.foldl g s) := by
  induction l generalizing s with
  | nil => exact h
  | cons a l ih => exact ih (hg a s h)

theorem performMem_sound (k : AbortKind) (a : MemAction) {s : State} (h : Sound s) : Sound (performMem k s a) := by
  cases a with
  | act a => exact perform_sound a h
  | write addr v => exact poke_sound addr v h
  | abort addr => exact abortCall_sound k addr h

theorem performIdle_sound (a : IdleAction) {s : State} (h : Sound s) : Sound (performIdle s a) := by
  cases a with
  | act a => exact perform_sound a h
  | write addr v => exact poke_sound addr v h

theorem performHandler_sound (call : HandlerCall) (a : HandlerAction) {s : State} (h : Sound s) :
    Sound (performHandler call s a) := by
  cases a with
  | act a => exact perform_sound a h
  | abort addr => exact abortCall_sound .data addr h
  | setAcc => exact h.congr rfl rfl

theorem performCallback_sound (a : CallbackAction) {s : State} (h : Sound s) : Sound (performCallback s a) := by
  cases a with
  | act a => exact perform_sound a h
  | write addr v => exact poke_sound addr v h
  | abort addr => exact abortCall_sound .data addr h
  | setReset => exact h.congr rfl rfl

theorem charges_sound (row : Cycles) {s : State} (h : Sound s) : Sound (charges row s) := by
  have hi : ∀ s : State, Sound s → Sound (internalCall s) := fun s h =>
    foldl_sound performIdle (fun a _ => performIdle_sound a) _ (h.congr rfl rfl)
  have hc : ∀ s : State, Sound s → Sound (coprocCycleCall s) := fun s h =>
    foldl_sound performIdle (fun a _ => performIdle_sound a) _ (h.congr rfl rfl)
  have h1 : Sound (icycles row.i s) := by
    unfold icycles; split
    · exact h
    · exact hi _ (h.congr rfl rfl)
  unfold charges ccycles; split
  · exact h1
  · exact hc _ (h1.congr rfl rfl)

theorem touch_sound (c : Cls) (k : Access) (sz : Size) (a : Word) {s : State} (h : Sound s) : Sound (touch c k sz a s) := by
  have h0 : Sound { clearAborted s with collab := { (clearAborted s).collab with
      regions := (clearAborted s).collab.regions.map (Region.after c k sz a) } } := by
    unfold clearAborted; split <;> exact h.congr rfl rfl
  have h1 := foldl_sound (performMem k.abortKind) (fun a _ => performMem_sound _ a)
    ((met c k sz a s.collab.regions).flatMap fun r => r.reaction.before) h0
  unfold touch
  simp only []
  split
  · exact abortCall_sound _ _ h1
  · exact h1

theorem landStore_sound (k : Access) (sz : Size) (a : Word) (v : Option Word) (ms : List Region) {s : State} (h : Sound s) :
    Sound (landStore k sz a v ms s) := by
  cases v with
  | none => exact h
  | some v =>
    simp only [landStore]
    split
    · exact h
    · exact ⟨wf_portStore h.1 sz a v, h.2⟩

/-- An access of any kind keeps the form of memory and the order of the queue. -/
theorem access_sound (c : Cls) (k : Access) (sz : Size) (a : Word) (v : Option Word) {s : State} (h : Sound s) :
    Sound (access c k sz a v s).2 :=
  foldl_sound _ (fun a _ => performMem_sound _ a) _ (landStore_sound _ _ _ _ _ (touch_sound _ _ _ _ h))

theorem countAccess_sound (c : Cls) (k : Nat) {s : State} (h : Sound s) : Sound (countAccess c k s) := by
  cases c <;> exact h.congr rfl rfl

theorem memRead_sound (c : Cls) (sz : Size) (a : Word) {s : State} (h : Sound s) : Sound (memRead c sz a s).state := by
  simp only [memRead, checkAborted_state]
  exact access_sound _ _ _ _ _ (countAccess_sound _ _ h)

theorem memWrite_sound (c : Cls) (sz : Size) (a v : Word) {s : State} (h : Sound s) : Sound (memWrite c sz a v s).state := by
  simp only [memWrite, checkAborted_state]
  exact access_sound _ _ _ _ _ (countAccess_sound _ _ h)

theorem memSwap_sound (sz : Size) (a v : Word) {s : State} (h : Sound s) : Sound (memSwap sz a v s).state := by
  simp only [memSwap, checkAborted_state]
  exact access_sound _ _ _ _ _ (countAccess_sound _ _ h)

theorem readWords_sound (n : Nat) (c : Cls) (a : Word) {s : State} (h : Sound s) : Sound (readWords n c a s).state := by
  induction n generalizing c a s with
  | zero => exact h
  | succ n ih =>
    have h1 := memRead_sound c .word a h
    unfold readWords
    split
    · rename_i s1 he; rw [he] at h1; exact h1
    · rename_i w s1 he
      rw [he] at h1
      have h2 := ih .s (a + 4#32) (s := s1) h1
      split
      · rename_i s2 he2; rw [he2] at h2; exact h2
      · rename_i ws s2 he2; rw [he2] at h2; exact h2

theorem writeWords_sound (ws : List Word) (c : Cls) (a : Word) {s : State} (h : Sound s) :
    Sound (writeWords ws c a s).state := by
  induction ws generalizing c a s with
  | nil => exact h
  | cons w ws ih =>
    have h1 := memWrite_sound c .word a w h
    unfold writeWords
    split
    · rename_i s1 he; rw [he] at h1; exact h1
    · rename_i s1 he; rw [he] at h1; exact ih .s (a + 4#32) (s := s1) h1

theorem fetch_sound (a : Word) {s : State} (h : Sound s) : Sound (fetch a s).2 :=
  (access_sound (fetchClass a s.pipe.lastFetch) .fetch (fetchSize s) a none
    (countAccess_sound (fetchClass a s.pipe.lastFetch) 1 h)).congr rfl rfl

theorem refill_sound {s : State} (h : Sound s) : Sound (refill s) := by
  have h1 : Sound (fetch s.pc (flush s)).2 := fetch_sound _ (h.congr rfl rfl)
  have h2 : Sound { (fetch s.pc (flush s)).2 with
      pipe := { (fetch s.pc (flush s)).2.pipe with decoded := (fetch s.pc (flush s)).1 } } := h1.congr rfl rfl
  exact (fetch_sound (s.pc + isz s) h2).congr rfl rfl

theorem branchTo_sound (v : Word) {s : State} (h : Sound s) : Sound (branchTo v s) := refill_sound (h.congr rfl rfl)

theorem enter_sound (inline : Bool) (e : Exc) {s : State} (h : Sound s) : Sound (enter inline e s) := by
  cases e <;> exact refill_sound (h.congr rfl rfl)

theorem raiseState_sound (e : Exc) {s : State} (h : Sound s) : Sound (raiseState e s) := by
  unfold raiseState
  split
  · exact h.congr rfl rfl
  · exact enter_sound true e h

theorem trap_sound {e : Exc} {s t : State} (h : Sound s) (ht : trap e s = .next t) : Sound t := by
  rcases trap_cases ht with ⟨-, rfl⟩ | ⟨-, rfl⟩
  · exact enter_sound true e (charges_sound _ h)
  · exact h.congr rfl rfl

theorem writeReg_sound (n : RegNum) (v : Word) {s : State} (h : Sound s) : Sound (writeReg s n v) := by
  unfold writeReg writeBank
  split
  · exact h.congr rfl rfl
  · exact h

theorem callHandler_sound (cp : BitVec 4) (hd : Handler) (call : HandlerCall) {s : State} (h : Sound s) :
    Sound (callHandler cp hd call s).state := by
  unfold callHandler
  simp only []
  split
  · exact h.congr rfl rfl
  · split
    · exact h.congr rfl rfl
    · exact foldl_sound _ (fun a _ => performHandler_sound call a) _ (h.congr rfl rfl)
    · exact foldl_sound _ (fun a _ => performHandler_sound call a) _ (h.congr rfl rfl)

theorem callData_sound (cp : BitVec 4) (call : HandlerCall) {s : State} (h : Sound s) : Sound (callData cp call s).2 := by
  unfold callData
  split
  · exact h
  · simp only []
    split
    · exact h.congr rfl rfl
    · exact foldl_sound _ (fun a _ => performHandler_sound call a) _ (h.congr rfl rfl)

theorem giveWords_sound (cp : BitVec 4) (instr : Word) (k : Nat) (ws : List Word) {s : State} (h : Sound s) :
    Sound (giveWords cp instr k ws s) := by
  induction ws generalizing k s with
  | nil => exact h
  | cons w ws ih => exact ih _ (callData_sound _ _ h)

theorem storeHandlerWords_sound (cp : BitVec 4) (instr : Word) (n k : Nat) (c : Cls) (a : Word) {s : State} (h : Sound s) :
    Sound (storeHandlerWords cp instr n k c a s).state := by
  induction n generalizing k c a s with
  | zero => exact h
  | succ n ih =>
    have h1 := memWrite_sound c .word a (callData cp (.stcData instr k) s).1 (callData_sound cp (.stcData instr k) h)
    unfold storeHandlerWords
    simp only []
    split
    · rename_i s1 he; rw [he] at h1; exact h1
    · rename_i s1 he; rw [he] at h1; exact ih _ _ _ (s := s1) h1

theorem fire_sound (k : Nat) {s : State} (h : Sound s) : Sound (fire s k) := by
  unfold fire
  split
  · exact foldl_sound _ (fun a _ => performCallback_sound a) _ (cancel_sound _ h)
  · exact h

theorem eventPass_sound {s : State} (h : Sound s) : Sound (eventPass s) := foldl_sound fire (fun k _ => fire_sound k) _ h

theorem retire_sound {s : State} (h : Sound s) : Sound (retire s) := eventPass_sound (h.congr rfl rfl)

/-- What precedes the instruction in a step. -/
theorem prepare_sound {s : State} (h : Sound s) : Sound (prepare s) := by
  have h1 : Sound (debugHook s.pc s.pipe.decoded.word (spendBudget s)) := h.congr rfl rfl
  have h2 : Sound { debugHook s.pc s.pipe.decoded.word (spendBudget s) with
      pipe := { (debugHook s.pc s.pipe.decoded.word (spendBudget s)).pipe with
        decoded := (debugHook s.pc s.pipe.decoded.word (spendBudget s)).pipe.loaded } } := h1.congr rfl rfl
  exact (fetch_sound _ h2).congr rfl rfl

end Sys2Proof.Machine
end

