-- ==== Sys2Proof/Tests/Slice0.lean ====
section
/-! SUPPORT. Tests: ill-formed terms, words written out from the encodings of spec/30_encoding.md, one step of each kind from
the worked vectors of spec/95_test_vectors.md, and for each statement of Certificates/Slice0/Obligations.lean with hypotheses a
state and operands that meet them. -/

namespace Sys2Proof.Tests

open Sys2Proof Sys2Proof.Machine

/-! ## Helpers -/

/-- Register `n`, `NZCV`, and the cycles S, N, I, C of a state. -/
def x (t : State) (n : Nat) : Word := readReg t (BitVec.ofNat 4 n)

/-- `NZCV` as a number of four bits. -/
def nzcv (t : State) : BitVec 4 := t.cpsr.word.extractLsb' 28 4

/-- The cycles counted, S, N, I, C. -/
def cyc (t : State) : List Nat := [t.ctr.numS, t.ctr.numN, t.ctr.numI, t.ctr.numC]

/-- The word at an address. -/
def m (t : State) (a : Word) : Word := portLoad t.mem .word a

/-- A state with registers of the current mode written. -/
def withRegs (rs : List (Nat × Word)) (s : State) : State := rs.foldl (fun s r => writeReg s (BitVec.ofNat 4 r.1) r.2) s

/-- A state with words written to memory. -/
def withMem (ws : List (Word × Word)) (s : State) : State :=
  ws.foldl (fun s w => { s with mem := portStore s.mem .word w.1 w.2 }) s

/-- A state with the CPSR a word gives. -/
def withCpsr (w : Word) (s : State) : State := { s with cpsr := (psrOfWord w).getD s.cpsr }

/-- A state with one SPSR written. -/
def withSpsr (b : Fin 7) (w : Word) (s : State) : State := { s with spsr := s.spsr.set b w }

/-- A state whose interface aborts accesses to the word at `a` and keeps its bytes. -/
def abortsAt (a : Nat) (s : State) : State :=
  let r : Region := {
    lo := a, hi := a + 3, fetch := false, read := true, write := true, cls := none, aborts := true, storeLands := false,
    script := [] }
  { s with collab := { s.collab with regions := [r] } }

/-- A state with a handler bound to a slot. -/
def bound (cp : Fin 16) (rs : List CoprocReply) (ds : List DataReply) (s : State) : State :=
  { s with coproc := s.coproc.set cp (.bound { replies := rs.map .leaf, data := ds.map .leaf, calls := [] }) }

/-- The calls a handler has received. -/
def calls (cp : Fin 16) (s : State) : List HandlerCall :=
  match s.coproc[cp] with
  | .bound h => h.calls
  | .unbound => []

/-- V0 of spec/95_test_vectors.md with an instruction of `n` bits at the pc. -/
def at' (n : Nat) (pc : Word) (w : Nat) : State :=
  { State.reset with
    pc
    ctr := { numS := 0, numN := 0, numI := 0, numC := 0, numF := 0, numInstrs := 0, now := 0, cost := 0 } }.withFetchWord n w

/-- V0 with an ARM word at 0x8000, the flags and registers given. -/
def arm (w : Nat) (rs : List (Nat × Word)) (flags : BitVec 4 := 0) : State :=
  withRegs rs (withCpsr (flags ++ 0x0000093#28) (at' 32 0x8000#32 w))

/-- V0 with a Thumb halfword at 0x8000, the flags and registers given. -/
def thumb (w : Nat) (rs : List (Nat × Word)) (flags : BitVec 4 := 0) : State :=
  withRegs rs (withCpsr (flags ++ 0x00000B3#28) (at' 16 0x8000#32 w))

/-- The step answers a next state that satisfies `p`. -/
def after (s : State) (p : State → Bool) : Bool :=
  match step s with
  | .next t => p t
  | _ => false

/-- The step is refused with this reason. -/
def refuses (s : State) (r : Refusal) : Bool :=
  match step s with
  | .refused q => q == r
  | _ => false

/-- The step is `fault InvalidMode`. -/
def faults (s : State) : Bool :=
  match step s with
  | .fault .invalidMode => true
  | _ => false

/-- An ARM word and the instruction it stands for, both ways. -/
abbrev shows (w : Word) (i : Instr) : Prop := decodeArm w = .instr i ∧ encode i = .arm w

/-- A Thumb halfword and the instruction it stands for, both ways. -/
abbrev showsT (h : Half) (i : Instr) : Prop := decodeThumb h = .instr i ∧ encode i = .thumb h

/-! ## Words written out from the encodings of spec/30_encoding.md, field by field -/

theorem test_decode_a1 :
    shows 0b0101_001_0000_0_1100_0001_0010_00110000#32 (.andA1 { cond := .pl, s := false, rn := 12, rd := 1, rot := 2, imm8 := 0x30 }) ∧
    shows 0b1010_001_0001_0_1100_0001_0111_00010111#32 (.eorA1 { cond := .ge, s := false, rn := 12, rd := 1, rot := 7, imm8 := 0x17 }) ∧
    shows 0b1001_001_0010_0_0110_1011_1101_10100000#32 (.subA1 { cond := .ls, s := false, rn := 6, rd := 11, rot := 13, imm8 := 0xA0 }) ∧
    shows 0b1000_001_0011_1_0101_1010_0100_11111010#32 (.rsbA1 { cond := .hi, s := true, rn := 5, rd := 10, rot := 4, imm8 := 0xFA }) ∧
    shows 0b0000_001_0100_1_1110_1001_1100_10110001#32 (.addA1 { cond := .eq, s := true, rn := 14, rd := 9, rot := 12, imm8 := 0xB1 }) ∧
    shows 0b0010_001_0101_1_1100_1000_0100_11011100#32 (.adcA1 { cond := .cs, s := true, rn := 12, rd := 8, rot := 4, imm8 := 0xDC }) ∧
    shows 0b1001_001_0110_0_1000_1001_0011_11010110#32 (.sbcA1 { cond := .ls, s := false, rn := 8, rd := 9, rot := 3, imm8 := 0xD6 }) ∧
    shows 0b0011_001_0111_0_0110_1110_0101_00111000#32 (.rscA1 { cond := .cc, s := false, rn := 6, rd := 14, rot := 5, imm8 := 0x38 }) ∧
    shows 0b0101_001_1000_1_1011_0000_0010_00111011#32 (.tstA1 { cond := .pl, rn := 11, rot := 2, imm8 := 0x3B }) ∧
    shows 0b0111_001_1001_1_0101_0000_0100_10111001#32 (.teqA1 { cond := .vc, rn := 5, rot := 4, imm8 := 0xB9 }) ∧
    shows 0b1000_001_1010_1_1010_0000_0111_01100011#32 (.cmpA1 { cond := .hi, rn := 10, rot := 7, imm8 := 0x63 }) ∧
    shows 0b0011_001_1011_1_1011_0000_1110_10110010#32 (.cmnA1 { cond := .cc, rn := 11, rot := 14, imm8 := 0xB2 }) ∧
    shows 0b1110_001_1100_0_1011_1011_0010_00111101#32 (.orrA1 { cond := .al, s := false, rn := 11, rd := 11, rot := 2, imm8 := 0x3D }) ∧
    shows 0b0010_001_1101_0_0000_0100_1110_01001010#32 (.movA1 { cond := .cs, s := false, rd := 4, rot := 14, imm8 := 0x4A }) ∧
    shows 0b0000_001_1110_1_0110_1001_0111_10100110#32 (.bicA1 { cond := .eq, s := true, rn := 6, rd := 9, rot := 7, imm8 := 0xA6 }) ∧
    shows 0b1100_001_1111_0_0000_0101_0100_11110010#32 (.mvnA1 { cond := .gt, s := false, rd := 5, rot := 4, imm8 := 0xF2 }) := by decide

theorem test_decode_a2 :
    shows 0b0101_000_0000_0_0110_0001_00101_11_0_1101#32 (.andA2 { cond := .pl, s := false, rn := 6, rd := 1, shiftImm := 0x5, shift := .ror, rm := 13 }) ∧
    shows 0b1000_000_0001_0_1001_1101_01001_00_0_1001#32 (.eorA2 { cond := .hi, s := false, rn := 9, rd := 13, shiftImm := 0x9, shift := .lsl, rm := 9 }) ∧
    shows 0b0111_000_0010_1_1011_1001_01111_01_0_0111#32 (.subA2 { cond := .vc, s := true, rn := 11, rd := 9, shiftImm := 0xF, shift := .lsr, rm := 7 }) ∧
    shows 0b0110_000_0011_0_0010_1010_10101_10_0_1010#32 (.rsbA2 { cond := .vs, s := false, rn := 2, rd := 10, shiftImm := 0x15, shift := .asr, rm := 10 }) ∧
    shows 0b0000_000_0100_1_1011_0101_00111_11_0_0001#32 (.addA2 { cond := .eq, s := true, rn := 11, rd := 5, shiftImm := 0x7, shift := .ror, rm := 1 }) ∧
    shows 0b1101_000_0101_1_1101_1011_11000_01_0_0100#32 (.adcA2 { cond := .le, s := true, rn := 13, rd := 11, shiftImm := 0x18, shift := .lsr, rm := 4 }) ∧
    shows 0b1000_000_0110_1_1010_0100_00011_11_0_1100#32 (.sbcA2 { cond := .hi, s := true, rn := 10, rd := 4, shiftImm := 0x3, shift := .ror, rm := 12 }) ∧
    shows 0b0101_000_0111_0_0011_1010_01001_00_0_1011#32 (.rscA2 { cond := .pl, s := false, rn := 3, rd := 10, shiftImm := 0x9, shift := .lsl, rm := 11 }) ∧
    shows 0b1101_000_1000_1_1000_0000_11110_11_0_1001#32 (.tstA2 { cond := .le, rn := 8, shiftImm := 0x1E, shift := .ror, rm := 9 }) ∧
    shows 0b0010_000_1001_1_1101_0000_10011_00_0_1000#32 (.teqA2 { cond := .cs, rn := 13, shiftImm := 0x13, shift := .lsl, rm := 8 }) ∧
    shows 0b1100_000_1010_1_0111_0000_11001_01_0_0110#32 (.cmpA2 { cond := .gt, rn := 7, shiftImm := 0x19, shift := .lsr, rm := 6 }) ∧
    shows 0b0101_000_1011_1_0010_0000_01110_00_0_0111#32 (.cmnA2 { cond := .pl, rn := 2, shiftImm := 0xE, shift := .lsl, rm := 7 }) ∧
    shows 0b1110_000_1100_1_0110_0011_11011_10_0_0010#32 (.orrA2 { cond := .al, s := true, rn := 6, rd := 3, shiftImm := 0x1B, shift := .asr, rm := 2 }) ∧
    shows 0b1001_000_1101_1_0000_1011_01001_01_0_0001#32 (.movA2 { cond := .ls, s := true, rd := 11, shiftImm := 0x9, shift := .lsr, rm := 1 }) ∧
    shows 0b0100_000_1110_1_0100_0001_10110_11_0_1101#32 (.bicA2 { cond := .mi, s := true, rn := 4, rd := 1, shiftImm := 0x16, shift := .ror, rm := 13 }) ∧
    shows 0b1001_000_1111_0_0000_0001_10100_11_0_0011#32 (.mvnA2 { cond := .ls, s := false, rd := 1, shiftImm := 0x14, shift := .ror, rm := 3 }) := by decide

theorem test_decode_a3 :
    shows 0b0001_000_0000_0_0010_1101_0001_0_00_1_0111#32 (.andA3 { cond := .ne, s := false, rn := 2, rd := 13, rs := 1, shift := .lsl, rm := 7 }) ∧
    shows 0b1000_000_0001_0_0011_0110_1011_0_00_1_0010#32 (.eorA3 { cond := .hi, s := false, rn := 3, rd := 6, rs := 11, shift := .lsl, rm := 2 }) ∧
    shows 0b0001_000_0010_1_0110_1110_1001_0_00_1_0011#32 (.subA3 { cond := .ne, s := true, rn := 6, rd := 14, rs := 9, shift := .lsl, rm := 3 }) ∧
    shows 0b1100_000_0011_1_0010_0010_1000_0_11_1_0010#32 (.rsbA3 { cond := .gt, s := true, rn := 2, rd := 2, rs := 8, shift := .ror, rm := 2 }) ∧
    shows 0b0011_000_0100_1_0100_0111_1100_0_11_1_0010#32 (.addA3 { cond := .cc, s := true, rn := 4, rd := 7, rs := 12, shift := .ror, rm := 2 }) ∧
    shows 0b0001_000_0101_0_0100_0111_0111_0_00_1_1110#32 (.adcA3 { cond := .ne, s := false, rn := 4, rd := 7, rs := 7, shift := .lsl, rm := 14 }) ∧
    shows 0b0110_000_0110_1_1100_0011_1011_0_11_1_0001#32 (.sbcA3 { cond := .vs, s := true, rn := 12, rd := 3, rs := 11, shift := .ror, rm := 1 }) ∧
    shows 0b1001_000_0111_0_0010_0110_1100_0_01_1_1000#32 (.rscA3 { cond := .ls, s := false, rn := 2, rd := 6, rs := 12, shift := .lsr, rm := 8 }) ∧
    shows 0b0001_000_1000_1_0100_0000_0011_0_10_1_1000#32 (.tstA3 { cond := .ne, rn := 4, rs := 3, shift := .asr, rm := 8 }) ∧
    shows 0b1000_000_1001_1_1011_0000_0101_0_10_1_0111#32 (.teqA3 { cond := .hi, rn := 11, rs := 5, shift := .asr, rm := 7 }) ∧
    shows 0b1000_000_1010_1_0110_0000_0001_0_10_1_0101#32 (.cmpA3 { cond := .hi, rn := 6, rs := 1, shift := .asr, rm := 5 }) ∧
    shows 0b0111_000_1011_1_0110_0000_1010_0_01_1_1010#32 (.cmnA3 { cond := .vc, rn := 6, rs := 10, shift := .lsr, rm := 10 }) ∧
    shows 0b1100_000_1100_1_1110_1100_0010_0_01_1_0101#32 (.orrA3 { cond := .gt, s := true, rn := 14, rd := 12, rs := 2, shift := .lsr, rm := 5 }) ∧
    shows 0b1100_000_1101_0_0000_0100_1101_0_01_1_0110#32 (.movA3 { cond := .gt, s := false, rd := 4, rs := 13, shift := .lsr, rm := 6 }) ∧
    shows 0b1101_000_1110_0_0100_1110_1110_0_01_1_1101#32 (.bicA3 { cond := .le, s := false, rn := 4, rd := 14, rs := 14, shift := .lsr, rm := 13 }) ∧
    shows 0b1110_000_1111_0_0000_0111_0110_0_10_1_0001#32 (.mvnA3 { cond := .al, s := false, rd := 7, rs := 6, shift := .asr, rm := 1 }) := by decide

theorem test_decode_status :
    shows 0b1100_00010_0_00_1111_1110_000000000000#32 (.mrs { cond := .gt, r := false, rd := 14 }) ∧
    shows 0b1000_00110_0_10_0010_1111_1110_10100110#32 (.msrImm { cond := .hi, r := false, mask := 2, rot := 14, imm8 := 0xA6 }) ∧
    shows 0b1001_00010_0_10_1000_1111_0000_0000_1110#32 (.msrReg { cond := .ls, r := false, mask := 8, rm := 14 }) := by decide

theorem test_decode_branches :
    shows 0b1000_0001_0010_1111_1111_1111_0001_1001#32 (.bx { cond := .hi, rm := 9 }) ∧
    shows 0b0001_101_0_110010010010101000011011#32 (.b { cond := .ne, imm24 := 0xC92A1B }) ∧
    shows 0b0110_101_1_001001110001110111111101#32 (.bl { cond := .vs, imm24 := 0x271DFD }) := by decide

theorem test_decode_multiplies :
    shows 0b0011_000000_0_1_0110_0000_1110_1001_0100#32 (.mul { cond := .cc, s := true, rd := 6, rs := 14, rm := 4 }) ∧
    shows 0b0110_000000_1_0_1100_1110_1010_1001_0010#32 (.mla { cond := .vs, s := false, rd := 12, rn := 14, rs := 10, rm := 2 }) ∧
    shows 0b1010_00001_00_0_1101_0010_0110_1001_1001#32 (.umull { cond := .ge, s := false, rdHi := 13, rdLo := 2, rs := 6, rm := 9 }) ∧
    shows 0b1100_00001_01_0_0100_1011_0100_1001_1000#32 (.umlal { cond := .gt, s := false, rdHi := 4, rdLo := 11, rs := 4, rm := 8 }) ∧
    shows 0b1110_00001_10_0_1110_0111_0011_1001_1100#32 (.smull { cond := .al, s := false, rdHi := 14, rdLo := 7, rs := 3, rm := 12 }) ∧
    shows 0b1110_00001_11_1_0101_0111_0101_1001_1101#32 (.smlal { cond := .al, s := true, rdHi := 5, rdLo := 7, rs := 5, rm := 13 }) := by decide

theorem test_decode_swaps :
    shows 0b1000_00010_0_00_1100_1010_0000_1001_1101#32 (.swp { cond := .hi, rn := 12, rd := 10, rm := 13 }) ∧
    shows 0b0011_00010_1_00_1011_1010_0000_1001_0010#32 (.swpb { cond := .cc, rn := 11, rd := 10, rm := 2 }) := by decide

theorem test_decode_halfwords :
    shows 0b1011_000_1_0_0_1_0_1110_1110_0000_1_01_1_0111#32 (.strhReg { cond := .lt, p := true, u := false, w := true, rn := 14, rd := 14, rm := 7 }) ∧
    shows 0b0101_000_1_0_1_0_0_0111_0011_0010_1_01_1_1000#32 (.strhImm { cond := .pl, p := true, u := false, w := false, rn := 7, rd := 3, immHi := 2, immLo := 8 }) ∧
    shows 0b0100_000_0_0_0_1_1_0100_1101_0000_1_01_1_1000#32 (.ldrhReg { cond := .mi, p := false, u := false, w := true, rn := 4, rd := 13, rm := 8 }) ∧
    shows 0b0110_000_0_1_1_1_1_0010_1000_0001_1_01_1_0101#32 (.ldrhImm { cond := .vs, p := false, u := true, w := true, rn := 2, rd := 8, immHi := 1, immLo := 5 }) ∧
    shows 0b0110_000_0_1_0_0_1_0010_1000_0000_1_10_1_0010#32 (.ldrsbReg { cond := .vs, p := false, u := true, w := false, rn := 2, rd := 8, rm := 2 }) ∧
    shows 0b1001_000_0_0_1_1_1_0011_1110_0110_1_10_1_1101#32 (.ldrsbImm { cond := .ls, p := false, u := false, w := true, rn := 3, rd := 14, immHi := 6, immLo := 13 }) ∧
    shows 0b1110_000_1_0_0_0_1_0111_0011_0000_1_11_1_0101#32 (.ldrshReg { cond := .al, p := true, u := false, w := false, rn := 7, rd := 3, rm := 5 }) ∧
    shows 0b0100_000_0_0_1_0_1_1001_1001_0110_1_11_1_1001#32 (.ldrshImm { cond := .mi, p := false, u := false, w := false, rn := 9, rd := 9, immHi := 6, immLo := 9 }) := by decide

theorem test_decode_transfers :
    shows 0b0111_010_1_0_0_1_1_1011_0101_000100101110#32 (.ldrImmPre { cond := .vc, u := false, w := true, rn := 11, rd := 5, off12 := 0x12E }) ∧
    shows 0b0000_010_0_0_0_0_1_0110_0100_111001001110#32 (.ldrImmPost { cond := .eq, u := false, rn := 6, rd := 4, off12 := 0xE4E }) ∧
    shows 0b0001_010_0_1_0_1_1_1001_1100_100111011001#32 (.ldrtImm { cond := .ne, u := true, rn := 9, rd := 12, off12 := 0x9D9 }) ∧
    shows 0b1011_011_1_0_0_0_1_1010_0110_01000_11_0_1011#32 (.ldrRegPre { cond := .lt, u := false, w := false, rn := 10, rd := 6, shiftImm := 0x8, shift := .ror, rm := 11 }) ∧
    shows 0b0000_011_0_0_0_0_1_0010_1000_11011_01_0_0001#32 (.ldrRegPost { cond := .eq, u := false, rn := 2, rd := 8, shiftImm := 0x1B, shift := .lsr, rm := 1 }) ∧
    shows 0b0001_011_0_1_0_1_1_1001_0111_10010_00_0_1110#32 (.ldrtReg { cond := .ne, u := true, rn := 9, rd := 7, shiftImm := 0x12, shift := .lsl, rm := 14 }) ∧
    shows 0b0010_010_1_0_1_1_1_1110_0101_101110100111#32 (.ldrbImmPre { cond := .cs, u := false, w := true, rn := 14, rd := 5, off12 := 0xBA7 }) ∧
    shows 0b0101_010_0_1_1_0_1_0111_0001_100111100111#32 (.ldrbImmPost { cond := .pl, u := true, rn := 7, rd := 1, off12 := 0x9E7 }) ∧
    shows 0b0011_010_0_1_1_1_1_0101_0110_110000110110#32 (.ldrbtImm { cond := .cc, u := true, rn := 5, rd := 6, off12 := 0xC36 }) ∧
    shows 0b0001_011_1_1_1_1_1_0110_0111_00011_10_0_0010#32 (.ldrbRegPre { cond := .ne, u := true, w := true, rn := 6, rd := 7, shiftImm := 0x3, shift := .asr, rm := 2 }) ∧
    shows 0b0010_011_0_1_1_0_1_0001_1100_00001_10_0_1001#32 (.ldrbRegPost { cond := .cs, u := true, rn := 1, rd := 12, shiftImm := 0x1, shift := .asr, rm := 9 }) ∧
    shows 0b1010_011_0_0_1_1_1_0010_0100_11000_10_0_0011#32 (.ldrbtReg { cond := .ge, u := false, rn := 2, rd := 4, shiftImm := 0x18, shift := .asr, rm := 3 }) ∧
    shows 0b0100_010_1_0_0_0_0_1101_0100_000010000011#32 (.strImmPre { cond := .mi, u := false, w := false, rn := 13, rd := 4, off12 := 0x83 }) ∧
    shows 0b1101_010_0_0_0_0_0_0010_0001_010001000010#32 (.strImmPost { cond := .le, u := false, rn := 2, rd := 1, off12 := 0x442 }) ∧
    shows 0b1010_010_0_1_0_1_0_0011_1100_111001110001#32 (.strtImm { cond := .ge, u := true, rn := 3, rd := 12, off12 := 0xE71 }) ∧
    shows 0b1000_011_1_0_0_0_0_0111_0101_01111_00_0_0010#32 (.strRegPre { cond := .hi, u := false, w := false, rn := 7, rd := 5, shiftImm := 0xF, shift := .lsl, rm := 2 }) ∧
    shows 0b1010_011_0_0_0_0_0_0101_0010_10000_01_0_0110#32 (.strRegPost { cond := .ge, u := false, rn := 5, rd := 2, shiftImm := 0x10, shift := .lsr, rm := 6 }) ∧
    shows 0b0011_011_0_1_0_1_0_1110_1100_00100_11_0_1001#32 (.strtReg { cond := .cc, u := true, rn := 14, rd := 12, shiftImm := 0x4, shift := .ror, rm := 9 }) ∧
    shows 0b1100_010_1_0_1_0_0_0010_0100_101010011101#32 (.strbImmPre { cond := .gt, u := false, w := false, rn := 2, rd := 4, off12 := 0xA9D }) ∧
    shows 0b0100_010_0_1_1_0_0_0100_1000_000111110000#32 (.strbImmPost { cond := .mi, u := true, rn := 4, rd := 8, off12 := 0x1F0 }) ∧
    shows 0b0111_010_0_1_1_1_0_0011_0110_111110101010#32 (.strbtImm { cond := .vc, u := true, rn := 3, rd := 6, off12 := 0xFAA }) ∧
    shows 0b0100_011_1_1_1_1_0_1110_1110_00111_01_0_1001#32 (.strbRegPre { cond := .mi, u := true, w := true, rn := 14, rd := 14, shiftImm := 0x7, shift := .lsr, rm := 9 }) ∧
    shows 0b0001_011_0_1_1_0_0_0101_1110_00100_11_0_1000#32 (.strbRegPost { cond := .ne, u := true, rn := 5, rd := 14, shiftImm := 0x4, shift := .ror, rm := 8 }) ∧
    shows 0b0110_011_0_0_1_1_0_0110_0010_00101_01_0_1000#32 (.strbtReg { cond := .vs, u := false, rn := 6, rd := 2, shiftImm := 0x5, shift := .lsr, rm := 8 }) := by decide

theorem test_decode_undefined_swi :
    shows 0b0101_011_01000011111001001100_1_1000#32 (.undefined { cond := .pl, hi := 0x43E4C, lo := 8 }) ∧
    shows 0b0111_1111_110010011110101010010010#32 (.swi { cond := .vc, imm24 := 0xC9EA92 }) := by decide

theorem test_decode_blocks :
    shows 0b1110_100_0_1_0_0_1_1000_1100100111000100#32 (.ldm1 { cond := .al, p := false, u := true, w := false, rn := 8, list := 0xC9C4 }) ∧
    shows 0b0000_100_0_0_1_1_1_1110_0010011010100111#32 (.ldm2 { cond := .eq, p := false, u := false, w := true, rn := 14, list := 0x26A7 }) ∧
    shows 0b1011_100_0_1_1_1_1_1100_1000111101111010#32 (.ldm3 { cond := .lt, p := false, u := true, w := true, rn := 12, list := 0xF7A }) ∧
    shows 0b1101_100_1_0_0_1_0_1010_1100101111101000#32 (.stm1 { cond := .le, p := true, u := false, w := true, rn := 10, list := 0xCBE8 }) ∧
    shows 0b0001_100_0_0_1_1_0_1000_1011111010010011#32 (.stm2 { cond := .ne, p := false, u := false, w := true, rn := 8, list := 0xBE93 }) := by decide

theorem test_decode_coprocessor :
    shows 0b0101_110_1_1_0_1_1_0011_0001_1001_01001100#32 (.ldc { cond := .pl, p := true, u := true, n := false, w := true, rn := 3, crd := 1, cp := 9, off8 := 0x4C }) ∧
    shows 0b0011_110_1_1_1_0_0_1011_1101_1101_11001100#32 (.stc { cond := .cc, p := true, u := true, n := true, w := false, rn := 11, crd := 13, cp := 13, off8 := 0xCC }) ∧
    shows 0b1110_1110_0110_0010_0001_1101_101_0_0100#32 (.cdp { cond := .al, op1 := 6, crn := 2, crd := 1, cp := 13, op2 := 5, crm := 4 }) ∧
    shows 0b1010_1110_100_1_0001_0100_0101_100_1_1010#32 (.mrc { cond := .ge, op1 := 4, crn := 1, rd := 4, cp := 5, op2 := 4, crm := 10 }) ∧
    shows 0b0100_1110_100_0_1000_1000_1100_011_1_1001#32 (.mcr { cond := .mi, op1 := 4, crn := 8, rd := 8, cp := 12, op2 := 3, crm := 9 }) := by decide

theorem test_decode_thumb_1_to_3 :
    showsT 0b000_00_00111_010_010#16 (.tLslImm { off5 := 0x7, rs := 2, rd := 2 }) ∧
    showsT 0b000_01_00100_011_101#16 (.tLsrImm { off5 := 0x4, rs := 3, rd := 5 }) ∧
    showsT 0b000_10_01110_011_100#16 (.tAsrImm { off5 := 0xE, rs := 3, rd := 4 }) ∧
    showsT 0b00011_0_0_010_011_011#16 (.tAddReg { rn := 2, rs := 3, rd := 3 }) ∧
    showsT 0b00011_0_1_001_010_101#16 (.tSubReg { rn := 1, rs := 2, rd := 5 }) ∧
    showsT 0b00011_1_0_001_101_011#16 (.tAddImm3 { imm3 := 1, rs := 5, rd := 3 }) ∧
    showsT 0b00011_1_1_101_100_011#16 (.tSubImm3 { imm3 := 5, rs := 4, rd := 3 }) ∧
    showsT 0b001_00_110_11010011#16 (.tMovImm { rd := 6, imm8 := 0xD3 }) ∧
    showsT 0b001_01_110_11010011#16 (.tCmpImm { rd := 6, imm8 := 0xD3 }) ∧
    showsT 0b001_10_011_11000000#16 (.tAddImm8 { rd := 3, imm8 := 0xC0 }) ∧
    showsT 0b001_11_100_10101101#16 (.tSubImm8 { rd := 4, imm8 := 0xAD }) := by decide

theorem test_decode_thumb_4 :
    showsT 0b010000_0000_100_100#16 (.tAnd { rs := 4, rd := 4 }) ∧
    showsT 0b010000_0001_101_010#16 (.tEor { rs := 5, rd := 2 }) ∧
    showsT 0b010000_0010_011_001#16 (.tLslReg { rs := 3, rd := 1 }) ∧
    showsT 0b010000_0011_100_011#16 (.tLsrReg { rs := 4, rd := 3 }) ∧
    showsT 0b010000_0100_110_110#16 (.tAsrReg { rs := 6, rd := 6 }) ∧
    showsT 0b010000_0101_100_100#16 (.tAdc { rs := 4, rd := 4 }) ∧
    showsT 0b010000_0110_010_100#16 (.tSbc { rs := 2, rd := 4 }) ∧
    showsT 0b010000_0111_101_001#16 (.tRorReg { rs := 5, rd := 1 }) ∧
    showsT 0b010000_1000_001_110#16 (.tTst { rs := 1, rd := 6 }) ∧
    showsT 0b010000_1001_100_011#16 (.tNeg { rs := 4, rd := 3 }) ∧
    showsT 0b010000_1010_001_011#16 (.tCmp { rs := 1, rd := 3 }) ∧
    showsT 0b010000_1011_010_010#16 (.tCmn { rs := 2, rd := 2 }) ∧
    showsT 0b010000_1100_001_001#16 (.tOrr { rs := 1, rd := 1 }) ∧
    showsT 0b010000_1101_001_010#16 (.tMul { rs := 1, rd := 2 }) ∧
    showsT 0b010000_1110_011_110#16 (.tBic { rs := 3, rd := 6 }) ∧
    showsT 0b010000_1111_100_010#16 (.tMvn { rs := 4, rd := 2 }) := by decide

theorem test_decode_thumb_5 :
    showsT 0b010001_00_1_1_001_001#16 (.tAddHi { h1 := true, h2 := true, rs := 1, rd := 1 }) ∧
    showsT 0b010001_01_0_1_011_110#16 (.tCmpHi { h1 := false, h2 := true, rs := 3, rd := 6 }) ∧
    showsT 0b010001_10_1_0_001_100#16 (.tMovHi { h1 := true, h2 := false, rs := 1, rd := 4 }) ∧
    showsT 0b010001_11_0_1_100_000#16 (.tBx { h2 := true, rs := 4 }) := by decide

theorem test_decode_thumb_6_to_11 :
    showsT 0b01001_101_01111100#16 (.tLdrPc { rd := 5, word8 := 0x7C }) ∧
    showsT 0b0101_00_0_101_011_011#16 (.tStrReg { ro := 5, rb := 3, rd := 3 }) ∧
    showsT 0b0101_01_0_100_100_001#16 (.tStrbReg { ro := 4, rb := 4, rd := 1 }) ∧
    showsT 0b0101_10_0_011_110_110#16 (.tLdrReg { ro := 3, rb := 6, rd := 6 }) ∧
    showsT 0b0101_11_0_001_100_011#16 (.tLdrbReg { ro := 1, rb := 4, rd := 3 }) ∧
    showsT 0b0101_00_1_110_101_011#16 (.tStrhReg { ro := 6, rb := 5, rd := 3 }) ∧
    showsT 0b0101_10_1_001_101_110#16 (.tLdrhReg { ro := 1, rb := 5, rd := 6 }) ∧
    showsT 0b0101_01_1_101_110_011#16 (.tLdsb { ro := 5, rb := 6, rd := 3 }) ∧
    showsT 0b0101_11_1_011_001_011#16 (.tLdsh { ro := 3, rb := 1, rd := 3 }) ∧
    showsT 0b011_00_00111_100_011#16 (.tStrImm { off5 := 0x7, rb := 4, rd := 3 }) ∧
    showsT 0b011_01_01110_010_100#16 (.tLdrImm { off5 := 0xE, rb := 2, rd := 4 }) ∧
    showsT 0b011_10_10010_001_101#16 (.tStrbImm { off5 := 0x12, rb := 1, rd := 5 }) ∧
    showsT 0b011_11_01011_011_100#16 (.tLdrbImm { off5 := 0xB, rb := 3, rd := 4 }) ∧
    showsT 0b1000_0_00011_010_110#16 (.tStrhImm { off5 := 0x3, rb := 2, rd := 6 }) ∧
    showsT 0b1000_1_00011_011_101#16 (.tLdrhImm { off5 := 0x3, rb := 3, rd := 5 }) ∧
    showsT 0b1001_0_010_11010100#16 (.tStrSp { rd := 2, word8 := 0xD4 }) ∧
    showsT 0b1001_1_110_00011110#16 (.tLdrSp { rd := 6, word8 := 0x1E }) := by decide

theorem test_decode_thumb_12_to_15 :
    showsT 0b1010_0_010_11001001#16 (.tAddPc { rd := 2, word8 := 0xC9 }) ∧
    showsT 0b1010_1_110_10100000#16 (.tAddSp { rd := 6, word8 := 0xA0 }) ∧
    showsT 0b10110000_0_0011100#16 (.tAddToSp { sword7 := 0x1C }) ∧
    showsT 0b10110000_1_0010100#16 (.tSubFromSp { sword7 := 0x14 }) ∧
    showsT 0b1011_0_10_0_10101000#16 (.tPush { r := false, list := 0xA8 }) ∧
    showsT 0b1011_1_10_0_01011110#16 (.tPop { r := false, list := 0x5E }) ∧
    showsT 0b1100_0_001_10011111#16 (.tStmia { rb := 1, list := 0x9F }) ∧
    showsT 0b1100_1_110_10111111#16 (.tLdmia { rb := 6, list := 0xBF }) := by decide

theorem test_decode_thumb_16_to_19 :
    showsT 0b1101_0000_10101001#16 (.tBEq { off8 := 0xA9 }) ∧
    showsT 0b1101_0001_11100010#16 (.tBNe { off8 := 0xE2 }) ∧
    showsT 0b1101_0010_01010110#16 (.tBCs { off8 := 0x56 }) ∧
    showsT 0b1101_0011_00110111#16 (.tBCc { off8 := 0x37 }) ∧
    showsT 0b1101_0100_00000001#16 (.tBMi { off8 := 0x1 }) ∧
    showsT 0b1101_0101_00101000#16 (.tBPl { off8 := 0x28 }) ∧
    showsT 0b1101_0110_10001111#16 (.tBVs { off8 := 0x8F }) ∧
    showsT 0b1101_0111_00101001#16 (.tBVc { off8 := 0x29 }) ∧
    showsT 0b1101_1000_10110011#16 (.tBHi { off8 := 0xB3 }) ∧
    showsT 0b1101_1001_11010111#16 (.tBLs { off8 := 0xD7 }) ∧
    showsT 0b1101_1010_00111111#16 (.tBGe { off8 := 0x3F }) ∧
    showsT 0b1101_1011_01101010#16 (.tBLt { off8 := 0x6A }) ∧
    showsT 0b1101_1100_11000010#16 (.tBGt { off8 := 0xC2 }) ∧
    showsT 0b1101_1101_10110110#16 (.tBLe { off8 := 0xB6 }) ∧
    showsT 0b11011111_10011110#16 (.tSwi { off8 := 0x9E }) ∧
    showsT 0b11100_11011101011#16 (.tB { off11 := 0x6EB }) ∧
    showsT 0b1111_0_00101100111#16 (.tBlHi { off11 := 0x167 }) ∧
    showsT 0b1111_1_00011001001#16 (.tBlLo { off11 := 0xC9 }) := by decide

/-! ## Words that decode to no instruction (spec/95_test_vectors.md 2.1) -/

theorem test_near_matches :
    decodeArm 0xE1A11001#32 = .nearMatch (some .al) ∧ decodeArm 0xE1501001#32 = .nearMatch (some .al) ∧
    decodeArm 0xE1000190#32 = .nearMatch (some .al) ∧ decodeThumb 0x47F0#16 = .nearMatch none ∧
    decodeThumb 0x4771#16 = .nearMatch none := by decide

theorem test_undefined_words :
    decodeArm 0xE1200070#32 = .undefined (some .al) ∧ decodeArm 0xE12FFF30#32 = .undefined (some .al) ∧
    decodeArm 0xE16F0F10#32 = .undefined (some .al) ∧ decodeArm 0xE1C000D0#32 = .undefined (some .al) ∧
    decodeArm 0xE0400090#32 = .undefined (some .al) ∧ decodeThumb 0xDE00#16 = .undefined none ∧
    decodeThumb 0xE800#16 = .undefined none ∧ decodeThumb 0xB100#16 = .undefined none := by decide

theorem test_never : decodeArm 0xF1A00000#32 = .never := by decide

theorem test_table_word :
    decodeTableWord 32 0xE12FFF1E = some (.bx { cond := .al, rm := 14 }) ∧
    decodeTableWord 16 0xBD00 = some (.tPop { r := true, list := 0 }) ∧ decodeTableWord 16 0xDE00 = none := by decide

/-! ## Ill-formed terms, one for each check of Machine/Forms.lean -/

theorem test_ill_formed_arm :
    (Instr.andA3 { cond := .al, s := false, rn := 1, rd := 15, rs := 2, shift := .lsl, rm := 3 }).WellFormed = false ∧
    (Instr.cmpA3 { cond := .al, rn := 15, rs := 2, shift := .lsl, rm := 3 }).WellFormed = false ∧
    (Instr.movA3 { cond := .al, s := false, rd := 1, rs := 15, shift := .lsl, rm := 3 }).WellFormed = false ∧
    (Instr.mrs { cond := .al, r := false, rd := 15 }).WellFormed = false ∧
    (Instr.msrReg { cond := .al, r := false, mask := 1, rm := 15 }).WellFormed = false ∧
    (Instr.mul { cond := .al, s := false, rd := 1, rs := 2, rm := 1 }).WellFormed = false ∧
    (Instr.mla { cond := .al, s := false, rd := 1, rn := 15, rs := 2, rm := 3 }).WellFormed = false ∧
    (Instr.umull { cond := .al, s := false, rdHi := 1, rdLo := 1, rs := 2, rm := 3 }).WellFormed = false ∧
    (Instr.smlal { cond := .al, s := false, rdHi := 1, rdLo := 2, rs := 15, rm := 3 }).WellFormed = false ∧
    (Instr.swp { cond := .al, rn := 1, rd := 2, rm := 1 }).WellFormed = false ∧
    (Instr.swpb { cond := .al, rn := 1, rd := 15, rm := 2 }).WellFormed = false := by decide

theorem test_ill_formed_transfers :
    (Instr.strhReg { cond := .al, p := false, u := true, w := true, rn := 1, rd := 2, rm := 3 }).restriction =
      some .postIndexedHalfwordW ∧
    (Instr.ldrhReg { cond := .al, p := true, u := true, w := false, rn := 1, rd := 2, rm := 15 }).restriction =
      some .r15NotAllowed ∧
    (Instr.ldrshReg { cond := .al, p := true, u := true, w := true, rn := 1, rd := 2, rm := 1 }).restriction = some .baseClash ∧
    (Instr.ldrsbImm { cond := .al, p := true, u := true, w := true, rn := 1, rd := 1, immHi := 0, immLo := 0 }).restriction =
      some .baseClash ∧
    (Instr.strhImm { cond := .al, p := true, u := true, w := false, rn := 1, rd := 15, immHi := 0, immLo := 0 }).restriction =
      some .r15NotAllowed ∧
    (Instr.ldrhImm { cond := .al, p := false, u := true, w := true, rn := 1, rd := 2, immHi := 0, immLo := 0 }).restriction =
      some .postIndexedHalfwordW ∧
    (Instr.ldrImmPre { cond := .al, u := true, w := true, rn := 15, rd := 1, off12 := 0 }).restriction = some .baseClash ∧
    (Instr.ldrbImmPre { cond := .al, u := true, w := false, rn := 1, rd := 15, off12 := 0 }).restriction = some .r15NotAllowed ∧
    (Instr.strImmPost { cond := .al, u := true, rn := 1, rd := 1, off12 := 0 }).restriction = some .baseClash ∧
    (Instr.strtImm { cond := .al, u := true, rn := 1, rd := 15, off12 := 0 }).restriction = some .r15NotAllowed ∧
    (Instr.ldrRegPre { cond := .al, u := true, w := false, rn := 1, rd := 2, shiftImm := 0, shift := .lsl, rm := 15 }).restriction =
      some .r15NotAllowed ∧
    (Instr.strRegPre { cond := .al, u := true, w := true, rn := 1, rd := 2, shiftImm := 0, shift := .lsl, rm := 1 }).restriction =
      some .baseClash ∧
    (Instr.ldrtReg { cond := .al, u := true, rn := 1, rd := 15, shiftImm := 0, shift := .lsl, rm := 2 }).restriction =
      some .r15NotAllowed ∧
    (Instr.strbRegPost { cond := .al, u := true, rn := 15, rd := 2, shiftImm := 0, shift := .lsl, rm := 3 }).restriction =
      some .baseClash := by decide

theorem test_ill_formed_blocks :
    (Instr.ldm1 { cond := .al, p := false, u := true, w := false, rn := 1, list := 0 }).restriction = some .emptyList ∧
    (Instr.ldm1 { cond := .al, p := false, u := true, w := true, rn := 1, list := 2 }).restriction = some .baseInList ∧
    (Instr.stm1 { cond := .al, p := false, u := true, w := true, rn := 1, list := 3 }).restriction = some .baseInList ∧
    (Instr.stm1 { cond := .al, p := false, u := true, w := true, rn := 1, list := 6 }).restriction = none ∧
    (Instr.stm1 { cond := .al, p := false, u := true, w := false, rn := 15, list := 1 }).restriction = some .r15NotAllowed ∧
    (Instr.stm2 { cond := .al, p := false, u := true, w := true, rn := 1, list := 1 }).restriction = some .userBankWriteBack ∧
    (Instr.ldm2 { cond := .al, p := false, u := true, w := true, rn := 1, list := 1 }).restriction = some .userBankWriteBack ∧
    (Instr.ldm2 { cond := .al, p := false, u := true, w := false, rn := 1, list := 0 }).restriction = some .emptyList ∧
    (Instr.ldm3 { cond := .al, p := false, u := true, w := true, rn := 1, list := 2 }).restriction = some .baseInList ∧
    (Instr.ldc { cond := .al, p := false, u := false, n := false, w := false, rn := 1, crd := 0, cp := 0, off8 := 0 }).restriction =
      some .unindexedDown ∧
    (Instr.stc { cond := .al, p := true, u := false, n := false, w := true, rn := 15, crd := 0, cp := 0, off8 := 0 }).restriction =
      some .baseClash := by decide

theorem test_ill_formed_thumb :
    (Instr.tMul { rs := 1, rd := 1 }).restriction = some .multiplyClash ∧
    (Instr.tAddHi { h1 := false, h2 := false, rs := 1, rd := 2 }).restriction = some .lowRegisters ∧
    (Instr.tMovHi { h1 := false, h2 := false, rs := 1, rd := 2 }).restriction = some .lowRegisters ∧
    (Instr.tCmpHi { h1 := true, h2 := false, rs := 1, rd := 7 }).restriction = some .r15NotAllowed ∧
    (Instr.tPush { r := false, list := 0 }).restriction = some .emptyList ∧
    (Instr.tPop { r := false, list := 0 }).restriction = some .emptyList ∧
    (Instr.tStmia { rb := 1, list := 3 }).restriction = some .baseInList ∧
    (Instr.tLdmia { rb := 1, list := 0 }).restriction = some .emptyList := by decide

/-! ## One step (spec/95_test_vectors.md 2.3 to 2.12) -/

theorem test_movs_lsl_0 : after (arm 0xE1B00001 [] 0b0010#4) fun t => x t 0 == 0 && nzcv t == 0b0110#4 && t.pc == 0x8004 && cyc t == [1, 0, 0, 0] := by decide

theorem test_movs_lsl_r33 : after (arm 0xE1B00211 [(1,1),(2,33)]) fun t => x t 0 == 0 && nzcv t == 0b0100#4 && t.pc == 0x8004 && cyc t == [1, 0, 1, 0] := by decide

theorem test_movs_ror_r36 : after (arm 0xE1B00271 [(1,0x80000001),(2,36)]) fun t => x t 0 == 0x18000000 && nzcv t == 0b0000#4 && t.pc == 0x8004 && cyc t == [1, 0, 1, 0] := by decide

theorem test_ands_imm : after (arm 0xE21104FF [(1,0x92345678)]) fun t => x t 0 == 0x92000000 && nzcv t == 0b1010#4 && t.pc == 0x8004 && cyc t == [1, 0, 0, 0] := by decide

theorem test_tst : after (arm 0xE3100001 [(0,2)] 0b0010#4) fun t => x t 0 == 2 && nzcv t == 0b0110#4 && t.pc == 0x8004 && cyc t == [1, 0, 0, 0] := by decide

theorem test_adds_overflow : after (arm 0xE0910002 [(1,0x7FFFFFFF),(2,1)]) fun t => x t 0 == 0x80000000 && nzcv t == 0b1001#4 && t.pc == 0x8004 && cyc t == [1, 0, 0, 0] := by decide

theorem test_adds_carry : after (arm 0xE0910002 [(1,0xFFFFFFFF),(2,1)]) fun t => x t 0 == 0 && nzcv t == 0b0110#4 && t.pc == 0x8004 && cyc t == [1, 0, 0, 0] := by decide

theorem test_subs_borrow : after (arm 0xE0510002 [(1,0),(2,1)]) fun t => x t 0 == 0xFFFFFFFF && nzcv t == 0b1000#4 && t.pc == 0x8004 && cyc t == [1, 0, 0, 0] := by decide

theorem test_subs_overflow : after (arm 0xE0510002 [(1,0x80000000),(2,1)]) fun t => x t 0 == 0x7FFFFFFF && nzcv t == 0b0011#4 && t.pc == 0x8004 && cyc t == [1, 0, 0, 0] := by decide

theorem test_adcs : after (arm 0xE0B10002 [(1,0xFFFFFFFF),(2,0)] 0b0010#4) fun t => x t 0 == 0 && nzcv t == 0b0110#4 && t.pc == 0x8004 && cyc t == [1, 0, 0, 0] := by decide

theorem test_sbcs_borrow : after (arm 0xE0D10002 [(1,5),(2,5)]) fun t => x t 0 == 0xFFFFFFFF && nzcv t == 0b1000#4 && t.pc == 0x8004 && cyc t == [1, 0, 0, 0] := by decide

theorem test_sbcs : after (arm 0xE0D10002 [(1,5),(2,5)] 0b0010#4) fun t => x t 0 == 0 && nzcv t == 0b0110#4 && t.pc == 0x8004 && cyc t == [1, 0, 0, 0] := by decide

theorem test_rscs : after (arm 0xE2F10000 [(1,1)] 0b0010#4) fun t => x t 0 == 0xFFFFFFFF && nzcv t == 0b1000#4 && t.pc == 0x8004 && cyc t == [1, 0, 0, 0] := by decide

theorem test_rscs_borrow : after (arm 0xE2F10000 [(1,1)]) fun t => x t 0 == 0xFFFFFFFE && nzcv t == 0b1000#4 && t.pc == 0x8004 && cyc t == [1, 0, 0, 0] := by decide

theorem test_rsb : after (arm 0xE2600000 [(0,0x80000000)]) fun t => x t 0 == 0x80000000 && nzcv t == 0b0000#4 && t.pc == 0x8004 && cyc t == [1, 0, 0, 0] := by decide

theorem test_mvn : after (arm 0xE3E00000 []) fun t => x t 0 == 0xFFFFFFFF && nzcv t == 0b0000#4 && t.pc == 0x8004 && cyc t == [1, 0, 0, 0] := by decide

theorem test_teq : after (arm 0xE1300001 [(0,5),(1,5)]) fun t => x t 0 == 5 && nzcv t == 0b0100#4 && t.pc == 0x8004 && cyc t == [1, 0, 0, 0] := by decide

theorem test_cmp : after (arm 0xE3500005 [(0,4)]) fun t => nzcv t == 0b1000#4 && t.pc == 0x8004 && cyc t == [1, 0, 0, 0] := by decide

theorem test_cmn : after (arm 0xE3700001 [(0,0xFFFFFFFF)]) fun t => nzcv t == 0b0110#4 && t.pc == 0x8004 && cyc t == [1, 0, 0, 0] := by decide

theorem test_mov9002 : refuses (arm 0xE1A0F001 [(1,0x9002)]) .misalignedPc := by decide

theorem test_add_r15_shift : refuses (arm 0xE08F0211 []) (.form .r15WithRegisterShift) := by decide

theorem test_mrs : after (arm 0xE10F0000 []) fun t => x t 0 == 0x93 && t.pc == 0x8004 := by decide

theorem test_msr_imm_flags : after (arm 0xE328F20F []) fun t => t.cpsr.word == 0xF0000093 && t.pc == 0x8004 && cyc t == [1, 0, 0, 0] := by decide

theorem test_msr_changes_t : refuses (arm 0xE121F000 [(0,0xB3)]) .msrChangesT := by decide

theorem test_mul : after (arm 0xE0000291 [(1,7),(2,6)]) fun t => x t 0 == 42 && t.pc == 0x8004 && cyc t == [1, 0, 1, 0] := by decide

theorem test_muls : after (arm 0xE0100291 [(1,0x10000),(2,0x10000)] 0b1000#4) fun t => x t 0 == 0 && !t.cpsr.n && t.cpsr.z && !t.cpsr.v && t.pc == 0x8004 && cyc t == [1, 0, 3, 0] := by decide

theorem test_mla : after (arm 0xE0203291 [(1,3),(2,4),(3,5)]) fun t => x t 0 == 17 && t.pc == 0x8004 && cyc t == [1, 0, 2, 0] := by decide

theorem test_umull : after (arm 0xE0810392 [(2,0xFFFFFFFF),(3,0xFFFFFFFF)]) fun t => x t 1 == 0xFFFFFFFE && x t 0 == 1 && t.pc == 0x8004 && cyc t == [1, 0, 5, 0] := by decide

theorem test_smull : after (arm 0xE0C10392 [(2,0xFFFFFFFF),(3,2)]) fun t => x t 1 == 0xFFFFFFFF && x t 0 == 0xFFFFFFFE && t.pc == 0x8004 && cyc t == [1, 0, 2, 0] := by decide

theorem test_umlal : after (arm 0xE0A10392 [(1,1),(0,0xFFFFFFFF),(2,1),(3,1)]) fun t => x t 1 == 2 && x t 0 == 0 && t.pc == 0x8004 && cyc t == [1, 0, 3, 0] := by decide

theorem test_smlal : after (arm 0xE0E10392 [(2,0xFFFFFFFF),(3,1)]) fun t => x t 1 == 0xFFFFFFFF && x t 0 == 0xFFFFFFFF && t.pc == 0x8004 && cyc t == [1, 0, 3, 0] := by decide

theorem test_smulls : after (arm 0xE0D10392 [(2,0xFFFFFFFF),(3,2)]) fun t => x t 1 == 0xFFFFFFFF && x t 0 == 0xFFFFFFFE && t.cpsr.n && !t.cpsr.z && t.pc == 0x8004 && cyc t == [1, 0, 2, 0] := by decide

theorem test_b_self : after (arm 0xEAFFFFFE []) fun t => t.pc == 0x8000 && cyc t == [2, 1, 0, 0] := by decide

theorem test_b_far : after (arm 0xEA7FFFFF []) fun t => t.pc == 0x02008004 && cyc t == [2, 1, 0, 0] := by decide

theorem test_bl : after (arm 0xEB000000 []) fun t => x t 14 == 0x8004 && t.pc == 0x8008 && cyc t == [2, 1, 0, 0] := by decide

theorem test_bx_to_thumb : after (arm 0xE12FFF10 [(0,0x9001)]) fun t => t.cpsr.word == 0xB3 && t.pc == 0x9000 && cyc t == [2, 1, 0, 0] := by decide

theorem test_bx_misaligned : refuses (arm 0xE12FFF10 [(0,0x9002)]) .misalignedPc := by decide

theorem test_ldr_rotated : after (withMem [(0x1000,0xAABBCCDD)] (arm 0xE5910001 [(1,0x1000)])) fun t => x t 0 == 0xDDAABBCC && t.pc == 0x8004 && cyc t == [1, 1, 1, 0] := by decide

theorem test_ldrpost : after (withMem [(0x1000,0x11223344)] (arm 0xE4910004 [(1,0x1000)])) fun t => x t 0 == 0x11223344 && x t 1 == 0x1004 && t.pc == 0x8004 && cyc t == [1, 1, 1, 0] := by decide

theorem test_ldrreg : after (withMem [(0x100C,9)] (arm 0xE7B10102 [(1,0x1000),(2,3)])) fun t => x t 0 == 9 && x t 1 == 0x100C && t.pc == 0x8004 && cyc t == [1, 1, 1, 0] := by decide

theorem test_ldr_pc : after (withMem [(0x1000,0x9000)] (arm 0xE591F000 [(1,0x1000)])) fun t => t.pc == 0x9000 && cyc t == [2, 2, 1, 0] := by decide

theorem test_ldrb : after (withMem [(0x1000,0xAABBCCDD)] (arm 0xE5D10001 [(1,0x1000)])) fun t => x t 0 == 0xCC && t.pc == 0x8004 && cyc t == [1, 1, 1, 0] := by decide

theorem test_str_pre : after (arm 0xE5210004 [(1,0x1000),(0,0xDEADBEEF)]) fun t => x t 1 == 0xFFC && t.pc == 0x8004 && m t 0xFFC == 0xDEADBEEF && cyc t == [1, 1, 0, 0] := by decide

theorem test_strb : after (arm 0xE5C10001 [(1,0x1000),(0,0x1FF)]) fun t => t.pc == 0x8004 && m t 0x1000 == 0xFF00 && cyc t == [1, 1, 0, 0] := by decide

theorem test_str_pc : after (arm 0xE581F000 [(1,0x1000)]) fun t => t.pc == 0x8004 && m t 0x1000 == 0x800C && cyc t == [1, 1, 0, 0] := by decide

theorem test_ldrh : after (withMem [(0x1000,0xAABBCCDD)] (arm 0xE1D100B2 [(1,0x1000)])) fun t => x t 0 == 0xAABB && t.pc == 0x8004 && cyc t == [1, 1, 1, 0] := by decide

theorem test_ldrsb : after (withMem [(0x1000,0xAABBCCDD)] (arm 0xE1D100D1 [(1,0x1000)])) fun t => x t 0 == 0xFFFFFFCC && t.pc == 0x8004 && cyc t == [1, 1, 1, 0] := by decide

theorem test_ldrsh : after (withMem [(0x1000,0xAABBCCDD)] (arm 0xE19100F2 [(1,0x1000),(2,2)])) fun t => x t 0 == 0xFFFFAABB && t.pc == 0x8004 && cyc t == [1, 1, 1, 0] := by decide

theorem test_strh : after (arm 0xE0C100B2 [(1,0x1000),(0,0x12345678)]) fun t => x t 1 == 0x1002 && t.pc == 0x8004 && m t 0x1000 == 0x5678 && cyc t == [1, 1, 0, 0] := by decide

theorem test_ldrh_odd : refuses (arm 0xE1D100B1 [(1,0x1000)]) .oddHalfword := by decide

theorem test_swp : after (withMem [(0x1000,0x11111111)] (arm 0xE1010092 [(1,0x1000),(2,0x22222222)])) fun t => x t 0 == 0x11111111 && t.pc == 0x8004 && m t 0x1000 == 0x22222222 && cyc t == [1, 2, 1, 0] := by decide

theorem test_swpb : after (withMem [(0x1000,0xAABBCCDD)] (arm 0xE1410092 [(1,0x1000),(2,0x1FF)])) fun t => x t 0 == 0xDD && t.pc == 0x8004 && m t 0x1000 == 0xAABBCCFF && cyc t == [1, 2, 1, 0] := by decide

theorem test_ldru8 : refuses (arm 0xE4911004 []) (.form .baseClash) := by decide

theorem test_ldm_db : after (withMem [(0xff8,0x11),(0xffc,0x22)] (arm 0xE9300006 [(0,0x1000)])) fun t => x t 1 == 0x11 && x t 2 == 0x22 && x t 0 == 0xff8 && t.pc == 0x8004 && cyc t == [2, 1, 1, 0] := by decide

theorem test_stm_da : after (arm 0xE8000006 [(0,0x1000),(1,0x11),(2,0x22)]) fun t => x t 0 == 0x1000 && t.pc == 0x8004 && m t 0xffc == 0x11 && m t 0x1000 == 0x22 && cyc t == [2, 1, 0, 0] := by decide

theorem test_stm_db : after (arm 0xE92D4010 [(13,0x1000),(4,0x44),(14,0xEE)]) fun t => x t 13 == 0xff8 && t.pc == 0x8004 && m t 0xff8 == 0x44 && m t 0xffc == 0xEE && cyc t == [2, 1, 0, 0] := by decide

theorem test_ldm_pc : after (withMem [(0xff8,0x44),(0xffc,0x9000)] (arm 0xE8BD8010 [(13,0xff8)])) fun t => x t 4 == 0x44 && x t 13 == 0x1000 && t.pc == 0x9000 && cyc t == [3, 2, 1, 0] := by decide

theorem test_ldm2_write_back : refuses (arm 0xE8F02000 []) (.form .userBankWriteBack) := by decide

theorem test_undefined_row : after (arm 0xE7F000F0 []) fun t => x t 14 == 0x8004 && t.cpsr.word == 0x9B && t.pc == 4 && cyc t == [2, 1, 0, 0] := by decide

theorem test_undefined_row_failed : after (arm 0x07F000F0 []) fun t => t.pc == 0x8004 && cyc t == [1, 0, 0, 0] := by decide

theorem test_thumb_lsl : after (thumb 0x0088 [(1,0x40000001)]) fun t => x t 0 == 4 && nzcv t == 0b0010#4 && t.pc == 0x8002 && cyc t == [1, 0, 0, 0] := by decide

theorem test_thumb_lsr : after (thumb 0x0808 [(1,0x80000000)]) fun t => x t 0 == 0 && nzcv t == 0b0110#4 && t.pc == 0x8002 && cyc t == [1, 0, 0, 0] := by decide

theorem test_thumb_asr : after (thumb 0x1008 [(1,0x80000000)]) fun t => x t 0 == 0xFFFFFFFF && nzcv t == 0b1010#4 && t.pc == 0x8002 && cyc t == [1, 0, 0, 0] := by decide

theorem test_thumb_add : after (thumb 0x1888 [(1,0x7FFFFFFF),(2,1)]) fun t => x t 0 == 0x80000000 && nzcv t == 0b1001#4 && t.pc == 0x8002 && cyc t == [1, 0, 0, 0] := by decide

theorem test_thumb_sub1 : after (thumb 0x1E48 []) fun t => x t 0 == 0xFFFFFFFF && nzcv t == 0b1000#4 && t.pc == 0x8002 && cyc t == [1, 0, 0, 0] := by decide

theorem test_thumb_mov : after (thumb 0x20FF [] 0b1111#4) fun t => x t 0 == 0xFF && nzcv t == 0b0011#4 && t.pc == 0x8002 && cyc t == [1, 0, 0, 0] := by decide

theorem test_thumb_cmp : after (thumb 0x290A [(1,10)]) fun t => nzcv t == 0b0110#4 && t.pc == 0x8002 && cyc t == [1, 0, 0, 0] := by decide

theorem test_thumb_sub : after (thumb 0x3B01 []) fun t => x t 3 == 0xFFFFFFFF && nzcv t == 0b1000#4 && t.pc == 0x8002 && cyc t == [1, 0, 0, 0] := by decide

theorem test_thumb_mul : after (thumb 0x4348 [(0,6),(1,7)]) fun t => x t 0 == 42 && !t.cpsr.n && !t.cpsr.z && !t.cpsr.v && t.pc == 0x8002 && cyc t == [1, 0, 1, 0] := by decide

theorem test_thumb_addhi : after (thumb 0x4488 [(8,0x10),(1,1)] 0b0100#4) fun t => x t 8 == 0x11 && nzcv t == 0b0100#4 && t.pc == 0x8002 && cyc t == [1, 0, 0, 0] := by decide

theorem test_thumb_movpc : after (thumb 0x46F7 [(14,0x9001)]) fun t => t.cpsr.word == 0xB3 && t.pc == 0x9000 && cyc t == [2, 1, 0, 0] := by decide

theorem test_thumb_bx_pc : after (thumb 0x4778 []) fun t => t.cpsr.word == 0x93 && t.pc == 0x8004 && cyc t == [2, 1, 0, 0] := by decide

theorem test_thumb_addsp : after (thumb 0xB002 [(13,0x1000)]) fun t => x t 13 == 0x1008 && t.pc == 0x8002 && cyc t == [1, 0, 0, 0] := by decide

theorem test_thumb_subsp : after (thumb 0xB082 [(13,0x1000)]) fun t => x t 13 == 0xFF8 && t.pc == 0x8002 && cyc t == [1, 0, 0, 0] := by decide

theorem test_u18 : refuses (thumb 0x4608 []) (.form .lowRegisters) := by decide

theorem test_thumb_str : after (thumb 0x5088 [(0,9),(1,0x1000),(2,8)]) fun t => t.pc == 0x8002 && m t 0x1008 == 9 && cyc t == [1, 1, 0, 0] := by decide

theorem test_thumb_ldsb : after (withMem [(0x1000,0xAABBCCDD)] (thumb 0x5688 [(1,0x1000),(2,1)])) fun t => x t 0 == 0xFFFFFFCC && t.pc == 0x8002 && cyc t == [1, 1, 1, 0] := by decide

theorem test_thumb_ldsh : after (withMem [(0x1000,0xAABBCCDD)] (thumb 0x5E88 [(1,0x1000),(2,2)])) fun t => x t 0 == 0xFFFFAABB && t.pc == 0x8002 && cyc t == [1, 1, 1, 0] := by decide

theorem test_thumb_ldri : after (withMem [(0x1004,7)] (thumb 0x6848 [(1,0x1000)])) fun t => x t 0 == 7 && t.pc == 0x8002 && cyc t == [1, 1, 1, 0] := by decide

theorem test_thumb_strb : after (thumb 0x7048 [(0,0x1FF),(1,0x1000)]) fun t => t.pc == 0x8002 && m t 0x1000 == 0xFF00 && cyc t == [1, 1, 0, 0] := by decide

theorem test_thumb_ldrh : after (withMem [(0x1000,0xAABBCCDD)] (thumb 0x8848 [(1,0x1000)])) fun t => x t 0 == 0xAABB && t.pc == 0x8002 && cyc t == [1, 1, 1, 0] := by decide

theorem test_thumb_strsp : after (thumb 0x9001 [(0,5),(13,0x1000)]) fun t => t.pc == 0x8002 && m t 0x1004 == 5 && cyc t == [1, 1, 0, 0] := by decide

theorem test_thumb_push : after (thumb 0xB510 [(13,0x1000),(4,0x44),(14,0xEE)]) fun t => x t 13 == 0xff8 && t.pc == 0x8002 && m t 0xff8 == 0x44 && m t 0xffc == 0xEE && cyc t == [2, 1, 0, 0] := by decide

theorem test_thumb_pop : after (withMem [(0xff8,0x44),(0xffc,0x9001)] (thumb 0xBD10 [(13,0xff8)])) fun t => x t 4 == 0x44 && x t 13 == 0x1000 && t.cpsr.word == 0xB3 && t.pc == 0x9000 && cyc t == [3, 2, 1, 0] := by decide

theorem test_thumb_stmia : after (thumb 0xC006 [(0,0x1000),(1,1),(2,2)]) fun t => x t 0 == 0x1008 && t.pc == 0x8002 && m t 0x1000 == 1 && m t 0x1004 == 2 && cyc t == [2, 1, 0, 0] := by decide

theorem test_thumb_ldmia : after (withMem [(0x1000,1),(0x1004,2)] (thumb 0xC806 [(0,0x1000)])) fun t => x t 1 == 1 && x t 2 == 2 && x t 0 == 0x1008 && t.pc == 0x8002 && cyc t == [2, 1, 1, 0] := by decide

theorem test_thumb_beq : after (thumb 0xD002 [] 0b0100#4) fun t => t.pc == 0x8008 && cyc t == [2, 1, 0, 0] := by decide

theorem test_thumb_beq0 : after (thumb 0xD002 []) fun t => t.pc == 0x8002 && cyc t == [1, 0, 0, 0] := by decide

theorem test_thumb_bne : after (thumb 0xD1FE []) fun t => t.pc == 0x8000 && cyc t == [2, 1, 0, 0] := by decide

theorem test_thumb_b : after (thumb 0xE7FE []) fun t => t.pc == 0x8000 && cyc t == [2, 1, 0, 0] := by decide

theorem test_thumb_b2 : after (thumb 0xE3FF []) fun t => t.pc == 0x8802 && cyc t == [2, 1, 0, 0] := by decide

theorem test_thumb_bl1 : after (thumb 0xF000 []) fun t => x t 14 == 0x8004 && t.pc == 0x8002 && cyc t == [1, 0, 0, 0] := by decide

theorem test_thumb_ldrhodd : refuses (thumb 0x5A88 [(1,1)]) .oddHalfword := by decide

theorem test_thumb_near_match : refuses (thumb 0x4771 []) .nearMatch := by decide

theorem test_return_arm :
    after (withSpsr 3 0x600000D0 (arm 0xE1B0F00E [(14, 0x9000)])) fun t =>
      t.pc == 0x9000 && t.cpsr.word == 0x600000D0 && cyc t == [2, 1, 0, 0] := by decide

theorem test_return_thumb :
    after (withSpsr 3 0x30 (arm 0xE1B0F00E [(14, 0x9000)])) fun t =>
      t.pc == 0x9000 && t.cpsr.word == 0x30 && t.pipe.lastFetch == { valid := true, addr := 0x9002, size := 2 } := by decide

theorem test_subs_pc_lr :
    after (withRegs [(14, 0x9008)] (withSpsr 2 0x10 (withCpsr 0x92 (arm 0xE25EF004 [])))) fun t =>
      t.pc == 0x9004 && t.cpsr.word == 0x10 := by decide

theorem test_return_user : faults (withCpsr 0x10 (arm 0xE1B0F00E [])) := by decide

theorem test_mrs_spsr :
    after (withSpsr 3 0xFFFFFFFF (arm 0xE14F0000 [])) fun t => x t 0 == 0xFFFFFFFF && t.pc == 0x8004 := by decide

theorem test_msr_mode :
    after (withRegs [(0, 0xD2)] { arm 0xE121F000 [] with regs := writePhys (arm 0xE121F000 []).regs (.sp 2) 0x2000 }) fun t =>
      t.cpsr.word == 0xD2 && x t 13 == 0x2000 && t.pc == 0x8004 && cyc t == [2, 1, 0, 0] := by decide

theorem test_msr_user :
    after (withCpsr 0x10 (arm 0xE121F000 [(0, 0xD3)])) fun t =>
      t.cpsr.word == 0x10 && t.pc == 0x8004 && cyc t == [1, 0, 0, 0] := by decide

theorem test_msr_spsr :
    after (withSpsr 3 0x00FFFF00 (arm 0xE169F000 [(0, 0xA00000FF)])) fun t => t.spsr[(3 : Fin 7)] == 0xA0FFFFFF := by decide

theorem test_eors :
    after (arm 0xE0310002 [(1, 0xF0F0), (2, 0xFFFF)] 0b0011) fun t => x t 0 == 0x0F0F && nzcv t == 0b0011 := by decide

theorem test_orr_imm : after (arm 0xE38100F0 [(1, 0x0F)] 0b0100) fun t => x t 0 == 0xFF && nzcv t == 0b0100 := by decide

theorem test_bics : after (arm 0xE1D10002 [(1, 0xFF), (2, 0x0F)]) fun t => x t 0 == 0xF0 && nzcv t == 0 := by decide

theorem test_ldr_abort :
    after (abortsAt 0x1004 (arm 0xE5910004 [(1, 0x1000), (0, 7)])) fun t =>
      x t 0 == 7 && x t 14 == 0x8008 && t.pc == 0x10 && t.cpsr.word == 0x97 && cyc t == [2, 2, 0, 0] &&
        t.fault.abortAddr == 0x1004 && t.spsr[(4 : Fin 7)] == 0x93 := by decide

theorem test_str_abort :
    after (abortsAt 0x1004 (arm 0xE5A10004 [(1, 0x1000), (0, 7)])) fun t =>
      x t 1 == 0x1000 && x t 14 == 0x8008 && t.pc == 0x10 && m t 0x1004 == 0 && cyc t == [2, 2, 0, 0] := by decide

theorem test_ldm_abort :
    after (abortsAt 0x1004 (arm 0xE8B00006 [(0, 0x1000), (1, 7), (2, 8)])) fun t =>
      x t 0 == 0x1000 && x t 1 == 7 && x t 2 == 8 && x t 14 == 0x8008 && t.pc == 0x10 && cyc t == [3, 2, 0, 0] := by decide

theorem test_stm_abort :
    after (abortsAt 0x1004 (arm 0xE8A00006 [(0, 0x1000), (1, 0x11), (2, 8)])) fun t =>
      x t 0 == 0x1000 && m t 0x1000 == 0x11 && m t 0x1004 == 0 && t.pc == 0x10 && cyc t == [3, 2, 0, 0] := by decide

theorem test_ldm2 :
    after (withMem [(0x1000, 0xAA), (0x1004, 0xBB)] (arm 0xE8D06000 [(0, 0x1000)])) fun t =>
      x t 13 == 0 && x t 14 == 0 && readUser t 13 == 0xAA && readUser t 14 == 0xBB && cyc t == [2, 1, 1, 0] := by decide

theorem test_stm2 :
    after (writeUser (writeUser (arm 0xE8C06000 [(0, 0x1000)]) 13 0xAA) 14 0xBB) fun t =>
      m t 0x1000 == 0xAA && m t 0x1004 == 0xBB && cyc t == [2, 1, 0, 0] := by decide

theorem test_ldm3 :
    after (withMem [(0x1000, 5), (0x1004, 0x9000)] (withSpsr 3 0x10 (arm 0xE8FD8001 [(13, 0x1000)]))) fun t =>
      x t 0 == 5 && t.pc == 0x9000 && t.cpsr.word == 0x10 && readPhys t.regs (.sp 3) == 0x1008 &&
        cyc t == [3, 2, 1, 0] := by decide

theorem test_ldrt :
    after (withMem [(0x1000, 9)] (arm 0xE4B10004 [(1, 0x1000)])) fun t => x t 0 == 9 && x t 1 == 0x1004 := by decide

theorem test_strbt : after (arm 0xE4E10001 [(0, 0x1FF), (1, 0x1000)]) fun t => m t 0x1000 == 0xFF && x t 1 == 0x1001 := by decide

theorem test_ldr_reg_post :
    after (withMem [(0x1000, 9)] (arm 0xE6910002 [(1, 0x1000), (2, 8)])) fun t => x t 0 == 9 && x t 1 == 0x1008 := by decide

theorem test_str_reg : after (arm 0xE7810002 [(0, 9), (1, 0x1000), (2, 8)]) fun t => m t 0x1008 == 9 && x t 1 == 0x1000 := by decide

theorem test_cdp_unbound :
    after (withCpsr 0x10 (arm 0xEE2431C5 [])) fun t =>
      t.pc == 4 && t.cpsr.word == 0x9B && x t 14 == 0x8004 && t.spsr[(5 : Fin 7)] == 0x10 && cyc t == [2, 1, 0, 0] := by decide

theorem test_cdp_fault :
    after (bound 1 [.faultTriggered []] [] (arm 0xEE2431C5 [])) fun t => t.pc == 0x8004 && cyc t == [1, 0, 0, 0] := by decide

theorem test_mrc :
    after (bound 15 [.handled [] (.const 0x41007000) 0] [] (arm 0xEE110F10 [])) fun t =>
      x t 0 == 0x41007000 && cyc t == [1, 0, 1, 1] := by decide

theorem test_mrc_not_handled :
    after (bound 15 [.notHandled] [] (arm 0xEE110F10 [])) fun t => t.pc == 4 && t.cpsr.word == 0x9B := by decide

theorem test_mcr :
    after (bound 15 [.handled [] (.const 0) 0] [] (arm 0xEE010F10 [(0, 5)])) fun t =>
      calls 15 t == [.mcr 0xEE010F10 5] && cyc t == [1, 0, 0, 1] := by decide

theorem test_ldc :
    after (bound 2 [.handled [] (.const 0) 1] [] (withMem [(0x1008, 1), (0x100C, 2)] (arm 0xED902202 [(0, 0x1000)]))) fun t =>
      calls 2 t == [.ldcData 0xED902202 1 2, .ldcData 0xED902202 0 1, .ldc 0xED902202] && cyc t == [2, 1, 0, 0] := by decide

theorem test_ldc_abort :
    after (abortsAt 0x100C (bound 2 [.handled [] (.const 0) 1] [] (arm 0xED902202 [(0, 0x1000)]))) fun t =>
      calls 2 t == [.ldc 0xED902202] && t.pc == 0x10 && x t 14 == 0x8008 && cyc t == [3, 2, 0, 0] := by decide

theorem test_stc :
    after (bound 2 [.handled [] (.const 0) 1] [{ acts := [], word := .const 3 }, { acts := [], word := .const 4 }] (arm 0xEDA02202 [(0, 0x1000)]))
      fun t => m t 0x1008 == 3 && m t 0x100C == 4 && x t 0 == 0x1008 &&
        calls 2 t == [.stcData 0xEDA02202 1, .stcData 0xEDA02202 0, .stc 0xEDA02202] := by decide

theorem test_swi :
    after (withCpsr 0x60000010 (arm 0xEF000011 [])) fun t =>
      t.pc == 8 && x t 14 == 0x8004 && t.cpsr.word == 0x60000093 && t.spsr[(3 : Fin 7)] == 0x60000010 &&
        cyc t == [2, 1, 0, 0] := by decide

theorem test_swi_caught :
    after (setCatchMask 4#9 (arm 0xEF000011 [])) fun t =>
      t.pc == 0x8000 && t.dbg.halt == some (.caught .swi) && !t.pipe.valid && t.cpsr.word == 0x93 := by decide

theorem test_thumb_swi :
    after (thumb 0xDF01 []) fun t =>
      t.pc == 8 && x t 14 == 0x8002 && t.cpsr.word == 0x93 && t.spsr[(3 : Fin 7)] == 0xB3 := by decide

theorem test_thumb_undefined :
    after (thumb 0xDE00 []) fun t =>
      t.pc == 4 && x t 14 == 0x8002 && t.cpsr.word == 0x9B && t.spsr[(5 : Fin 7)] == 0xB3 := by decide

theorem test_thumb_logic :
    after (thumb 0x4008 [(0, 12), (1, 10)]) (fun t => x t 0 == 8) && after (thumb 0x4048 [(0, 12), (1, 10)]) (fun t => x t 0 == 6) &&
    after (thumb 0x4308 [(0, 12), (1, 10)]) (fun t => x t 0 == 14) && after (thumb 0x4388 [(0, 12), (1, 10)]) (fun t => x t 0 == 4) &&
    after (thumb 0x43C8 [(1, 10)]) (fun t => x t 0 == 0xFFFFFFF5 && nzcv t == 0b1000) &&
    after (thumb 0x4208 [(0, 1), (1, 2)] 0b0011) (fun t => x t 0 == 1 && nzcv t == 0b0111) := by decide

theorem test_thumb_shift_regs :
    after (thumb 0x4088 [(0, 1), (1, 33)]) (fun t => x t 0 == 0 && nzcv t == 0b0100 && cyc t == [1, 0, 1, 0]) &&
    after (thumb 0x40C8 [(0, 0x80000000), (1, 32)]) (fun t => x t 0 == 0 && nzcv t == 0b0110) &&
    after (thumb 0x4108 [(0, 0x80000000), (1, 4)]) (fun t => x t 0 == 0xF8000000 && nzcv t == 0b1000) &&
    after (thumb 0x41C8 [(0, 1), (1, 1)]) (fun t => x t 0 == 0x80000000 && nzcv t == 0b1010) := by decide

theorem test_thumb_arith :
    after (thumb 0x4148 [(0, 0xFFFFFFFF)] 0b0010) (fun t => x t 0 == 0 && nzcv t == 0b0110) &&
    after (thumb 0x4188 [(0, 5), (1, 5)]) (fun t => x t 0 == 0xFFFFFFFF && nzcv t == 0b1000) &&
    after (thumb 0x4248 [(1, 1)]) (fun t => x t 0 == 0xFFFFFFFF && nzcv t == 0b1000) &&
    after (thumb 0x4288 [(0, 5), (1, 4)]) (fun t => x t 0 == 5 && nzcv t == 0b0010) &&
    after (thumb 0x42C8 [(0, 0xFFFFFFFF), (1, 1)]) (fun t => nzcv t == 0b0110) &&
    after (thumb 0x4541 [(1, 3), (8, 3)]) (fun t => nzcv t == 0b0110) := by decide

theorem test_thumb_bl_low :
    after (withCpsr 0xB3 (withRegs [(14, 0x8004)] (at' 16 0x8002 0xF802))) fun t => t.pc == 0x8008 && x t 14 == 0x8005 := by decide

theorem test_thumb_ldr_pc :
    after (withMem [(0x8008, 0xCAFEF00D)] (withCpsr 0xB3 (at' 16 0x8002 0x4801))) fun t =>
      x t 0 == 0xCAFEF00D && cyc t == [1, 1, 1, 0] := by decide

/-! ## The condition table of spec/95_test_vectors.md 2.2 -/

/-- The conditions that pass for one NZCV, as a list of field values. -/
def passing (flags : BitVec 4) : List Nat :=
  let p := (withCpsr (flags ++ 0x0000093#28) State.reset).cpsr
  [Cond.eq, .ne, .cs, .cc, .mi, .pl, .vs, .vc, .hi, .ls, .ge, .lt, .gt, .le, .al].filterMap fun c =>
    if conditionPassed c p then some (condBits c).toNat else none

theorem test_conditions :
    passing 0b0000 = [1, 3, 5, 7, 9, 10, 12, 14] ∧ passing 0b0100 = [0, 3, 5, 7, 9, 10, 13, 14] ∧
    passing 0b0010 = [1, 2, 5, 7, 8, 10, 12, 14] ∧ passing 0b0110 = [0, 2, 5, 7, 9, 10, 13, 14] ∧
    passing 0b1000 = [1, 3, 4, 7, 9, 11, 13, 14] ∧ passing 0b1001 = [1, 3, 4, 6, 9, 10, 12, 14] ∧
    passing 0b0001 = [1, 3, 5, 6, 9, 11, 13, 14] ∧ passing 0b1111 = [0, 2, 4, 6, 9, 10, 13, 14] := by decide

/-! ## Exceptions, events and reset (spec/95_test_vectors.md 2.13 to 2.15) -/

/-- V0 with the lines given. -/
def lined (reset fiq irq : Bool) (s : State) : State := { s with lines := { resetReq := reset, fiqLine := fiq, irqLine := irq } }

theorem test_irq :
    after (lined false false true (withCpsr 0x13 (arm 0xE1A00000 []))) fun t =>
      x t 14 == 0x8004 && t.spsr[(2 : Fin 7)] == 0x13 && t.cpsr.word == 0x92 && t.pc == 0x18 && t.ctr.numInstrs == 0 &&
        t.ctr.now == 0 && t.ctr.cost == 2 := by decide

theorem test_irq_masked : after (lined false false true (arm 0xE1A00000 [])) fun t => t.pc == 0x8004 := by decide

theorem test_fiq_thumb :
    after (lined false true true (withCpsr 0x33 (at' 16 0x8002 0x46C0))) fun t =>
      x t 14 == 0x8006 && t.spsr[(1 : Fin 7)] == 0x33 && t.cpsr.word == 0xD1 && t.pc == 0x1C := by decide

theorem test_reset_over_irq :
    after (lined true false true (withCpsr 0x13 (arm 0xE1A00000 []))) fun t =>
      t.pc == 0 && t.cpsr.word == 0x93 && !t.lines.resetReq && t.fault.reseted && t.spsr[(2 : Fin 7)] == 0 := by decide

theorem test_prefetch_abort :
    after { arm 0xE1A00000 [] with pipe := { (arm 0xE1A00000 []).pipe with decoded := { word := 0, pabort := true } } } fun t =>
      x t 14 == 0x8004 && t.spsr[(4 : Fin 7)] == 0x93 && t.cpsr.word == 0x97 && t.pc == 0xC := by decide

theorem test_data_abort_boundary :
    after (abortCall .data 0x5000 (arm 0xE1A00000 [])) fun t =>
      t.fault.abortAddr == 0x5000 && x t 14 == 0x8004 && t.cpsr.word == 0x97 && t.pc == 0x10 && t.fault.aborted == none := by
  decide

theorem test_catch_irq :
    after (setCatchMask 0x40#9 (lined false false true (withCpsr 0x13 (arm 0xE1A00000 [])))) fun t =>
      t.pc == 0x8000 && t.dbg.halt == some (.caught .irq) && t.lines.irqLine := by decide

theorem test_event_order :
    let s := { State.reset with collab := { State.reset.collab with callbacks := [[.act (.schedule 0 1)], [.act (.setIrq true)]] } }
    let s := (schedule 5 1 (schedule 3 0 s).2).2
    let t := eventPass { s with ctr := { s.ctr with now := 3 } }
    t.sched.events.map EventNode.handle = [2, 1] ∧ t.lines.irqLine = false ∧
      (eventPass { t with ctr := { t.ctr with now := 4 } }).sched.events.map EventNode.handle = [1] := by decide

theorem test_events_fifo :
    (schedule 2 1 (schedule 2 0 State.reset).2).2.sched.events.map EventNode.handle = [0, 1] := by decide

theorem test_reset :
    State.reset.cpsr.word = 0x93 ∧ State.reset.pc = 0 ∧ cyc State.reset = [1, 1, 0, 0] ∧ State.reset.ctr.cost = 2 ∧
      State.reset.Inv = true := by decide

theorem test_store_then_fetch :
    after (arm 0xE50F0004 [(0, 0xE3A01001)]) fun t => m t 0x8004 == 0xE3A01001 && t.pipe.decoded.word == 0 := by decide

/-- r15 from outside, by D2 of spec/92_eei_decisions.md and by the words of spec/10_state.md R28 (log 11). -/
theorem test_get_pc :
    let ahead (s : State) : State := { s with params := { defaultParams with getRegPc := .ahead } }
    getReg 0x13 15 (arm 0xE1A00000 []) = some 0x8000 ∧ getReg 0x13 15 (ahead (arm 0xE1A00000 [])) = some 0x8008 ∧
    getReg 0x13 15 (ahead (thumb 0x46C0 [])) = some 0x8004 ∧
    (setReg 0x13 15 0x9002 (ahead (arm 0xE1A00000 []))).bind (getReg 0x13 15) = some 0x9000 := by decide

/-! ## The port, the debug hook and the edges of the address space -/

theorem test_caught_leaves_state :
    let s := setCatchMask 0x40#9 (lined false false true (withCpsr 0x13 (arm 0xE1A00000 [])))
    let s := { s with pipe := { s.pipe with valid := false } }
    after s (fun t => t == halted (.caught .irq) s) = true := by decide

theorem test_msr_mode_at_top :
    after (withRegs [(0, 0xD2)] (withCpsr 0x93 (at' 32 0xFFFFFFFC 0xE121F000))) fun t =>
      t.pc == 0 && t.cpsr.word == 0xD2 && cyc t == [2, 1, 0, 0] := by decide

theorem test_advance_at_top : refuses (withCpsr 0x93 (at' 32 0xFFFFFFFC 0xE1A00000)) .wrapAtTop := by decide

/-- A store to a read-only region that does not abort: R72 lets the interface drop it. -/
theorem test_read_only_region :
    let s := arm 0xE5810000 [(0, 9), (1, 0x1000)]
    let r : Region := {
      lo := 0x1000, hi := 0x1FFF, fetch := false, read := false, write := true, cls := none, aborts := false,
      storeLands := false, script := [] }
    after { s with collab := { s.collab with regions := [r] } } fun t => m t 0x1000 == 0 && t.pc == 0x8004 := by decide

/-- A device register: its value is the interface's, and reading it lowers a line. -/
theorem test_device_region :
    let s := { arm 0xE5910000 [(0, 9), (1, 0x1000)] with lines := { resetReq := false, fiqLine := true, irqLine := false } }
    let s := withCpsr 0xD3 s
    let r : Region := {
      lo := 0x1000, hi := 0x1003, fetch := false, read := true, write := false, cls := some .n, aborts := false,
      storeLands := true,
      script := [{ before := [], after := [.act (.setFiq false)], answer := some 0x55, drops := false }] }
    after { s with collab := { s.collab with regions := [r] } } fun t => x t 0 == 0x55 && !t.lines.fiqLine := by decide

theorem test_internal_call :
    let s := arm 0xE1A00312 [(2, 1), (3, 4)]
    after { s with collab := { s.collab with internal := [[.write 0x1000 7]] } } fun t =>
      x t 0 == 16 && m t 0x1000 == 7 && t.collab.internal == [] && cyc t == [1, 0, 1, 0] := by decide

theorem test_handler_accumulator :
    after (bound 1 [.handled [.setAcc (.const 1) (.const 0x23456789)] (.const 0) 0] [] (arm 0xEE2431C5 [])) fun t => readAcc t == 0x1_2345_6789 := by decide

/-- A handler that reads the core (spec/47_arm_coprocessor_swi_undefined.md R321): it takes no MRC in USER mode, and answers with
the sum of r3 of USER and SPSR of SVC in the others. -/
theorem test_handler_reads :
    let mode : HandlerWord := .op .and .cpsr (.const 0x1F)
    let sum : HandlerWord := .op .add (.reg .user 3) (.spsr .svc)
    let c : Choice CoprocReply := .ifEq mode (.const 0x10) (.leaf .notHandled) (.leaf (.handled [] sum 0))
    let h : Handler := { replies := [c], data := [], calls := [] }
    let s := withSpsr 3 0x10 (arm 0xEE110F10 [(3, 5)])
    let s := { s with coproc := s.coproc.set 15 (.bound h) }
    after s (fun t => x t 0 == 0x15) ∧ after (withCpsr 0x10 s) (fun t => t.pc == 4 && t.cpsr.word == 0x9B) := by decide

theorem test_handler_argument :
    let h : Handler := {
      replies := [.leaf (.handled [.setAcc .accHigh (.op .add .accLow .value)] (.const 0) 0)], data := [], calls := [] }
    let s := writeAcc 0x12_0000_0001 (arm 0xEE010F10 [(0, 5)])
    after { s with coproc := s.coproc.set 15 (.bound h) } (fun t => readAcc t == 0x12_0000_0006) = true := by decide

theorem test_debug_hook :
    let s := arm 0xE1A00000 [(4, 7)]
    after { s with collab := { s.collab with breakpoints := [[.reg .svc 4 7, .pc 0x8000]] } } (fun t =>
      t.dbg.stopFlag && t.pc == 0x8004) &&
    after { s with collab := { s.collab with breakpoints := [[.reg .svc 4 8]] } } (fun t => !t.dbg.stopFlag) := by decide

/-! ## Witnesses: for each statement with hypotheses, states and operands that meet them, clause by clause -/

/-- V0 in ARM state. -/
def wA : State := arm 0xE1A00000 []

/-- V0 in Thumb state. -/
def wT : State := thumb 0x46C0 []

/-- V0 in USER mode. -/
def wU : State := withCpsr 0x10 wA

/-- V0 in SYSTEM mode. -/
def wS : State := withCpsr 0x1F wA

/-- V0 in ARM state with its slots invalid. -/
def wI : State := { wA with pipe := { wA.pipe with valid := false } }

/-- An ARM word at the last address of the address space. -/
def wTop (w : Nat) : State := withCpsr 0x93 (at' 32 0xFFFFFFFC#32 w)

theorem advances : CanAdvance wA ∧ CanAdvance wT ∧ CanAdvance wU ∧ CanAdvance wS := by unfold CanAdvance; decide

theorem quiet (k : Access) (sz : Size) (a : Word) : QuietAt k sz a wA ∧ QuietAt k sz a wT ∧ QuietAt k sz a wU :=
  ⟨⟨rfl, rfl⟩, ⟨rfl, rfl⟩, ⟨rfl, rfl⟩⟩

theorem quiet_words (k : Access) (n : Nat) (a : Word) : QuietWords k n a wA ∧ QuietWords k n a wT :=
  ⟨fun _ _ => (quiet _ _ _).1, fun _ _ => (quiet _ _ _).2.1⟩

theorem quiet_refill (a : Word) : QuietRefill a false wA ∧ QuietRefill a true wT :=
  ⟨⟨(quiet _ _ _).1, (quiet _ _ _).1⟩, ⟨(quiet _ _ _).2.1, (quiet _ _ _).2.1⟩⟩

theorem passes : conditionPassed .al wA.cpsr = true ∧ conditionPassed .al wU.cpsr = true ∧
    conditionPassed .al wS.cpsr = true ∧ wA.mem.wf = true ∧ wT.mem.wf = true := by decide

theorem witness_encodeDecode :
    decodeArm 0xE12FFF1E#32 = .instr (.bx { cond := .al, rm := 14 }) ∧
    decodeThumb 0x46C0#16 = .instr (.tMovHi { h1 := true, h2 := true, rs := 0, rd := 0 }) := by decide

theorem witness_stepRunsDecoded :
    (haltAsked wA = none ∧ wA.pipe.valid = true ∧ pendingException wA = none ∧ wA.cpsr.t = false ∧
      encode (.movA2 { cond := .al, s := false, rd := 0, shiftImm := 0, shift := .lsl, rm := 0 }) =
        .arm wA.pipe.decoded.word) ∧
    (haltAsked wT = none ∧ wT.pipe.valid = true ∧ pendingException wT = none ∧ wT.cpsr.t = true ∧
      encode (.tMovHi { h1 := true, h2 := true, rs := 0, rd := 0 }) = .thumb 0x46C0#16 ∧
        wT.pipe.decoded.word = (0x46C0#16).setWidth 32) ∧
    (haltAsked wI = none ∧ wI.pipe.valid = false ∧ pendingException (refill (clearHalt wI)) = none ∧
      (refill (clearHalt wI)).pipe.decoded.word = 0xE1A00000#32 ∧
      encode (.movA2 { cond := .al, s := false, rd := 0, shiftImm := 0, shift := .lsl, rm := 0 }) = .arm 0xE1A00000#32) ∧
    QuietAt .fetch (fetchSize wI) (wI.pc + (isz wI + isz wI)) (refill (clearHalt wI)) :=
  ⟨by decide, by decide, by decide, rfl, rfl⟩

theorem witness_swiAndUndefined :
    caught .swi wA = false ∧ caught .swi wT = false ∧ caught .undefined wA = false ∧
      (0xFFFFFFFF#32).extractLsb' 28 4 = 0b1111#4 ∧ (0xF0000000#32).extractLsb' 28 4 = 0b1111#4 := by decide

theorem witness_conditionFailed :
    (Instr.b { cond := .eq, imm24 := 0 }).cond = some .eq ∧ conditionPassed .eq wA.cpsr = false ∧ CanAdvance wA :=
  ⟨rfl, by decide, advances.1⟩

/-- The whole step of a word whose condition fails. -/
theorem witness_conditionFailed_step :
    let s := arm 0x00810002 []
    haltAsked s = none ∧ s.pipe.valid = true ∧ pendingException s = none ∧ s.cpsr.t = false ∧
      s.pipe.decoded.word.extractLsb' 28 4 = condBits .eq ∧ conditionPassed .eq s.cpsr = false ∧ CanAdvance s ∧
      QuietAt .fetch .word (s.pc + 8#32) s ∧ s.collab.hook = [] ∧ s.collab.breakpoints = [] ∧
      ∀ n ∈ s.sched.events, s.ctr.now + s.ctr.cost + 1 < n.trigger :=
  ⟨rfl, rfl, rfl, rfl, by decide, rfl, by unfold CanAdvance; decide, ⟨rfl, rfl⟩, rfl, rfl, by decide⟩

/-- A row with nothing to charge, and rows of both kinds over an interface that scripts nothing. -/
theorem witness_portContract :
    defaultCycles.dataImm = ⟨0, 0⟩ ∧ defaultCycles.mrc = ⟨1, 1⟩ ∧ wA.collab.internal = [] ∧ wA.collab.coprocCycle = [] := by
  decide

/-- The shifts at the edges of the ranges: amounts 0, 1, 31, 32, 33 and 255 (spec/95_test_vectors.md 2.3). -/
theorem witness_shifter :
    shiftReg .lsl 0 1#32 true = ⟨1#32, true⟩ ∧ shiftReg .lsl 32 1#32 false = ⟨0#32, true⟩ ∧
    shiftReg .lsl 33 1#32 true = ⟨0#32, false⟩ ∧ shiftReg .lsr 255 0xFFFFFFFF#32 true = ⟨0#32, false⟩ ∧
    shiftReg .asr 32 0x80000000#32 false = ⟨0xFFFFFFFF#32, true⟩ ∧ shiftReg .ror 32 0x80000001#32 false = ⟨0x80000001#32, true⟩ ∧
    shiftImm .ror 31 1#32 false = ⟨2#32, false⟩ ∧ shiftImm .ror 0 1#32 true = ⟨0x80000000#32, true⟩ ∧
    shifterImm 0 255 true = ⟨255#32, true⟩ ∧ shifterImm 4 0xFF false = ⟨0xFF000000#32, true⟩ := by decide

theorem witness_logicalOperations :
    (CanAdvance wA ∧ conditionPassed .al wA.cpsr = true) ∧
    (∀ row ∈ logicalRows,
      (row.a3 { cond := .al, s := true, rn := 0, rd := 14, rs := 1, shift := .ror, rm := 2 }).restriction = none) ∧
    (∀ row ∈ moveRows,
      (row.a3 { cond := .al, s := true, rd := 14, rs := 1, shift := .ror, rm := 2 }).restriction = none) ∧ (14#4 ≠ 15#4) :=
  ⟨⟨advances.1, passes.1⟩, by decide, by decide, by decide⟩

theorem witness_arithmeticOperations :
    (CanAdvance wA ∧ conditionPassed .al wA.cpsr = true) ∧
    ∀ row ∈ arithRows,
      (row.a3 { cond := .al, s := true, rn := 0, rd := 14, rs := 1, shift := .ror, rm := 2 }).restriction = none :=
  ⟨⟨advances.1, passes.1⟩, by decide⟩

theorem witness_compares :
    (CanAdvance wA ∧ conditionPassed .al wA.cpsr = true) ∧
    (∀ row ∈ testRows, (row.a3 { cond := .al, rn := 0, rs := 1, shift := .ror, rm := 2 }).restriction = none) ∧
    (∀ row ∈ compareRows, (row.a3 { cond := .al, rn := 0, rs := 1, shift := .ror, rm := 2 }).restriction = none) :=
  ⟨⟨advances.1, passes.1⟩, by decide, by decide⟩

/-- The three outcomes of a result for the pc: a branch, U10, and the fault. -/
theorem witness_resultsToPc :
    aligned false 0x9000#32 = true ∧ aligned false 0x9002#32 = false ∧ wA.cpsr.m.hasSpsr = true ∧ wU.cpsr.m.hasSpsr = false ∧
      conditionPassed .al wU.cpsr = true ∧ psrOfWord 0#32 = none ∧ (psrOfWord 0x10#32).isSome = true := by decide

theorem witness_statusAccess :
    (conditionPassed .al wA.cpsr = true ∧ CanAdvance wA ∧ (14#4 ≠ 15#4) ∧ wA.cpsr.m ≠ .user ∧ wA.cpsr.m ≠ .system) ∧
    (conditionPassed .al wU.cpsr = true ∧ CanAdvance wU ∧ wU.cpsr.m = .user) ∧
    (conditionPassed .al wS.cpsr = true ∧ CanAdvance wS ∧ wS.cpsr.m = .system) ∧
    (∃ f : MsrImm, f.r = true ∧ f.cond = .al ∧ f.mask = 15#4 ∧ (shifterImm f.rot f.imm8 wA.cpsr.c).value = 0xF0000000#32) ∧
    (∃ f : MsrReg, f.r = true ∧ f.cond = .al ∧ f.mask = 8#4 ∧ f.rm ≠ 15#4 ∧ readReg wA f.rm = 0#32) :=
  ⟨⟨passes.1, advances.1, by decide, by decide, by decide⟩, ⟨passes.2.1, advances.2.2.1, rfl⟩,
    ⟨passes.2.2.1, advances.2.2.2, rfl⟩, ⟨{ cond := .al, r := true, mask := 15, rot := 2, imm8 := 15 }, by decide⟩,
    ⟨{ cond := .al, r := true, mask := 8, rm := 0 }, by decide⟩⟩

/-- Every outcome of an MSR of the CPSR: USER mode, no c field, an invalid mode, a change of T, the same and another mode, the
last at the top of the address space too. -/
theorem witness_msrCpsr :
    (conditionPassed .al wA.cpsr = true ∧ CanAdvance wA ∧ conditionPassed .al wU.cpsr = true ∧ CanAdvance wU) ∧
    (∃ f : MsrImm, f.r = false ∧ f.cond = .al ∧ f.mask = 8#4 ∧ f.mask.getLsbD 0 = false ∧
      (shifterImm f.rot f.imm8 wA.cpsr.c).value = 0xF0000000#32) ∧
    (∃ f : MsrReg, f.r = false ∧ f.cond = .al ∧ f.mask = 1#4 ∧ f.mask.getLsbD 0 = true ∧ f.rm ≠ 15#4) ∧
    wU.cpsr.m = .user ∧ wA.cpsr.m ≠ .user ∧
    modeOfNumber ((0x00#32).extractLsb' 0 5) = none ∧
    modeOfNumber ((0xB3#32).extractLsb' 0 5) = some wA.cpsr.m ∧ (0xB3#32).getLsbD 5 ≠ wA.cpsr.t ∧
    modeOfNumber ((0x13#32).extractLsb' 0 5) = some wA.cpsr.m ∧ (0x13#32).getLsbD 5 = wA.cpsr.t ∧
    modeOfNumber ((0xD2#32).extractLsb' 0 5) = some .irq ∧ Mode.irq ≠ wA.cpsr.m ∧
    ((wTop 0xE121F000).cpsr.m ≠ .user ∧ ((wTop 0xE121F000).pc + isz (wTop 0xE121F000)) = 0#32) :=
  ⟨⟨passes.1, advances.1, passes.2.1, advances.2.2.1⟩, ⟨{ cond := .al, r := false, mask := 8, rot := 2, imm8 := 15 }, by decide⟩,
    ⟨{ cond := .al, r := false, mask := 1, rm := 0 }, by decide⟩, rfl, by decide, by decide, by decide, by decide, by decide,
    by decide, by decide, by decide, by decide⟩

theorem witness_multiplies :
    (Instr.mul { cond := .al, s := true, rd := 0, rs := 1, rm := 2 }).restriction = none ∧
    (Instr.mla { cond := .al, s := true, rd := 0, rn := 0, rs := 1, rm := 14 }).restriction = none ∧
    (Instr.tMul { rs := 1, rd := 0 }).restriction = none ∧ conditionPassed .al wA.cpsr = true ∧ CanAdvance wA ∧ CanAdvance wT :=
  ⟨rfl, rfl, rfl, passes.1, advances.1, advances.2.1⟩

theorem witness_longMultiplies :
    ({ cond := .al, s := true, rdHi := 1, rdLo := 0, rs := 1, rm := 2 } : Mull).check = none ∧
      conditionPassed .al wA.cpsr = true ∧ CanAdvance wA := ⟨rfl, passes.1, advances.1⟩

theorem witness_branches :
    conditionPassed .al wA.cpsr = true ∧ (0x9000#32).extractLsb' 0 2 ≠ 0b10#2 ∧ (0x9001#32).extractLsb' 0 2 ≠ 0b10#2 ∧
      (0x9003#32).extractLsb' 0 2 ≠ 0b10#2 ∧ (0x9002#32).extractLsb' 0 2 = 0b10#2 := by decide

theorem witness_branchWrite :
    QuietRefill 0xFFFFFFFC#32 false wA ∧ wA.cpsr.t = false ∧ QuietRefill 0xFFFFFFFE#32 true wT ∧ wT.cpsr.t = true :=
  ⟨(quiet_refill _).1, rfl, (quiet_refill _).2, rfl⟩

theorem witness_loadedValues : (0#32).getLsbD 0 = false ∧ (0xFFFFFFFE#32).getLsbD 0 = false := by decide

/-- One set of operands for each addressing form meets the field checks of every row. -/
theorem witness_armLoads :
    (CanAdvance wA ∧ conditionPassed .al wA.cpsr = true ∧ (∀ sz a, QuietAt .read sz a wA) ∧ (0x1002#32).getLsbD 0 = false) ∧
    (∀ row ∈ loadsImmPre, (row.1 { cond := .al, u := true, w := true, rn := 1, rd := 0, off12 := 0xFFF }).restriction = none) ∧
    (∀ row ∈ loadsImmPost, (row.1 { cond := .al, u := false, rn := 1, rd := 0, off12 := 0 }).restriction = none) ∧
    (∀ row ∈ loadsRegPre,
      (row.1 { cond := .al, u := true, w := true, rn := 1, rd := 0, shiftImm := 31, shift := .ror, rm := 2 }).restriction = none) ∧
    (∀ row ∈ loadsRegPost,
      (row.1 { cond := .al, u := false, rn := 1, rd := 0, shiftImm := 0, shift := .lsr, rm := 2 }).restriction = none) ∧
    (∀ row ∈ loadsHwReg, (row.1 { cond := .al, p := false, u := true, w := false, rn := 1, rd := 0, rm := 2 }).restriction = none) ∧
    (∀ row ∈ loadsHwImm,
      (row.1 { cond := .al, p := true, u := true, w := true, rn := 1, rd := 0, immHi := 15, immLo := 14 }).restriction = none) :=
  ⟨⟨advances.1, passes.1, fun _ _ => (quiet _ _ _).1, by decide⟩, by decide, by decide, by decide, by decide, by decide, by decide⟩

theorem witness_loadsToPc :
    (Instr.ldrImmPre { cond := .al, u := true, w := true, rn := 1, rd := 15, off12 := 4 }).restriction = none ∧
    (Instr.ldrImmPost { cond := .al, u := true, rn := 1, rd := 15, off12 := 4 }).restriction = none ∧
    (Instr.ldrRegPre { cond := .al, u := true, w := false, rn := 1, rd := 15, shiftImm := 0, shift := .lsl, rm := 2 }).restriction = none ∧
    (Instr.ldrRegPost { cond := .al, u := true, rn := 1, rd := 15, shiftImm := 0, shift := .lsl, rm := 2 }).restriction = none ∧
    (∀ a, QuietAt .read .word a wA) ∧ aligned wA.cpsr.t 0x9000#32 = true ∧ aligned wA.cpsr.t 0x9001#32 = false :=
  ⟨rfl, rfl, rfl, rfl, fun _ => (quiet _ _ _).1, by decide, by decide⟩

theorem witness_armStores :
    (CanAdvance wA ∧ wA.mem.wf = true ∧ conditionPassed .al wA.cpsr = true ∧ (∀ sz a, QuietAt .write sz a wA)) ∧
    (∀ row ∈ storesImmPre, (row.1 { cond := .al, u := true, w := true, rn := 1, rd := 0, off12 := 0xFFF }).restriction = none) ∧
    (∀ row ∈ storesImmPost, (row.1 { cond := .al, u := false, rn := 1, rd := 0, off12 := 0 }).restriction = none) ∧
    (∀ row ∈ storesRegPre,
      (row.1 { cond := .al, u := true, w := true, rn := 1, rd := 0, shiftImm := 31, shift := .ror, rm := 2 }).restriction = none) ∧
    (∀ row ∈ storesRegPost,
      (row.1 { cond := .al, u := false, rn := 1, rd := 0, shiftImm := 0, shift := .lsr, rm := 2 }).restriction = none) ∧
    (Instr.strImmPre { cond := .al, u := true, w := false, rn := 1, rd := 15, off12 := 0 }).restriction = none ∧
    (Instr.strhReg { cond := .al, p := false, u := true, w := false, rn := 1, rd := 0, rm := 2 }).restriction = none ∧
    (Instr.strhImm { cond := .al, p := true, u := true, w := true, rn := 1, rd := 0, immHi := 15, immLo := 14 }).restriction = none :=
  ⟨⟨advances.1, passes.2.2.2.1, passes.1, fun _ _ => (quiet _ _ _).1⟩, by decide, by decide, by decide, by decide, rfl, rfl, rfl⟩

theorem witness_swaps :
    ({ cond := .al, rn := 1, rd := 0, rm := 0 } : Swp).check = none ∧ CanAdvance wA ∧ conditionPassed .al wA.cpsr = true ∧
      wA.mem.wf = true ∧ ∀ sz a, QuietAt .swap sz a wA :=
  ⟨rfl, advances.1, passes.1, passes.2.2.2.1, fun _ _ => (quiet _ _ _).1⟩

/-- A load, a store and a swap, and a Thumb load, of a word that aborts, and a load whose abort the catch mask holds. -/
theorem witness_dataAborts :
    (let s := abortsAt 0 wA
     let i := Instr.ldrImmPre { cond := .al, u := true, w := true, rn := 1, rd := 0, off12 := 0 }
     i.access s = some (.read, .word, 0#32) ∧ i.Ready s ∧ AbortsAt .n .read .word 0#32 s ∧ caught .dataAbort s = false ∧
      QuietRefill 16#32 false s) ∧
    (let s := abortsAt 0 wA
     let i := Instr.strhImm { cond := .al, p := true, u := true, w := false, rn := 1, rd := 0, immHi := 0, immLo := 2 }
     i.access s = some (.write, .half, 2#32) ∧ i.Ready s ∧ AbortsAt .n .write .half 2#32 s ∧ (2#32).getLsbD 0 = false) ∧
    (let s := abortsAt 0 wA
     let i := Instr.swpb { cond := .al, rn := 1, rd := 0, rm := 2 }
     i.access s = some (.swap, .byte, 0#32) ∧ i.Ready s ∧ AbortsAt .n .swap .byte 0#32 s) ∧
    (let s := abortsAt 0 wT
     let i := Instr.tLdrImm { off5 := 0, rb := 1, rd := 0 }
     i.access s = some (.read, .word, 0#32) ∧ i.Ready s ∧ AbortsAt .n .read .word 0#32 s ∧ QuietRefill 16#32 false s) ∧
    (let s := setCatchMask 0x10#9 (abortsAt 0 wT)
     let i := Instr.tLdrImm { off5 := 0, rb := 1, rd := 0 }
     i.access s = some (.read, .word, 0#32) ∧ i.Ready s ∧ AbortsAt .n .read .word 0#32 s ∧ caught .dataAbort s = true) := by
  refine ⟨⟨rfl, ⟨rfl, ?_⟩, ⟨rfl, rfl, by decide⟩, rfl, ⟨⟨rfl, by decide⟩, ⟨rfl, by decide⟩⟩⟩, ⟨by decide, ⟨rfl, ?_⟩, ⟨rfl, rfl, by decide⟩, rfl⟩,
    ⟨rfl, ⟨rfl, ?_⟩, ⟨rfl, rfl, by decide⟩⟩, ⟨rfl, ⟨rfl, ?_⟩, ⟨rfl, rfl, by decide⟩, ⟨⟨rfl, by decide⟩, ⟨rfl, by decide⟩⟩⟩,
    ⟨rfl, ⟨rfl, ?_⟩, ⟨rfl, rfl, by decide⟩, rfl⟩⟩ <;>
  · intro c h
    cases h <;> decide

theorem witness_refusedForms :
    (Instr.mul { cond := .al, s := false, rd := 1, rs := 2, rm := 1 }).restriction = some .multiplyClash ∧
    (Instr.tPush { r := false, list := 0 }).restriction = some .emptyList ∧
    (let s := withRegs [(1, 1)] wA
     let i := Instr.ldrhImm { cond := .al, p := true, u := true, w := false, rn := 1, rd := 0, immHi := 0, immLo := 0 }
     i.access s = some (.read, .half, 1#32) ∧ (1#32).getLsbD 0 = true ∧ i.restriction = none ∧
      conditionPassed .al s.cpsr = true) := by decide

/-- LDC in the form of U17, STC in the form of U8, and a handler that handles both. -/
theorem witness_refusedForms_coprocessor :
    let f : CpLs := { cond := .al, p := false, u := false, n := false, w := false, rn := 0, crd := 0, cp := 2, off8 := 2 }
    let g : CpLs := { cond := .al, p := true, u := true, n := false, w := true, rn := 15, crd := 0, cp := 2, off8 := 2 }
    let h : Handler := { replies := [.leaf (.handled [] (.const 0#32) 1)], data := [], calls := [] }
    encode (.ldc f) = .arm 0xEC100202#32 ∧ (Instr.ldc f).restriction.isSome = true ∧
    encode (.stc g) = .arm 0xEDAF0202#32 ∧ (Instr.stc g).restriction.isSome = true ∧
    (callHandler 2#4 h (.ldc 0xEC100202#32) wA).result = .handled := by decide

/-- At the top of the address space: a failed condition, an operation, a Thumb one, a branch that goes on and a caught SWI. -/
theorem witness_refusedForms_top :
    (wTop 0).pc + isz (wTop 0) = 0#32 ∧ conditionPassed .eq (wTop 0).cpsr = false ∧
    conditionPassed .al (wTop 0).cpsr = true ∧
    (let s := withCpsr 0xB3 (at' 16 0xFFFFFFFE#32 0x2000)
     s.pc + isz s = 0#32) ∧
    (match exec (.b { cond := .al, imm24 := 0 }) (wTop 0) with | .next t => t.pc == 4#32 | _ => false) = true ∧
    (match exec (.swi { cond := .al, imm24 := 0 }) (setCatchMask 4#9 (wTop 0)) with | .next t => !t.pipe.valid | _ => false) =
      true := by decide

theorem witness_loadMultiple :
    (Instr.ldm1 { cond := .al, p := false, u := true, w := true, rn := 0, list := 0x7FFE }).restriction = none ∧
    (Instr.ldm1 { cond := .al, p := true, u := false, w := false, rn := 0, list := 0xFFFF }).restriction = none ∧
    conditionPassed .al wA.cpsr = true ∧ CanAdvance wA ∧ (∀ n a, QuietWords .read n a wA) ∧
    aligned wA.cpsr.t 0x9000#32 = true ∧ aligned wA.cpsr.t 0x9001#32 = false :=
  ⟨by decide, by decide, passes.1, advances.1, fun _ _ => (quiet_words _ _ _).1, by decide, by decide⟩

theorem witness_loadMultipleUser :
    (Instr.ldm2 { cond := .al, p := false, u := true, w := false, rn := 0, list := 0x7FFF }).restriction = none ∧
    (wU.cpsr.m = .user ∧ wS.cpsr.m = .system ∧ conditionPassed .al wU.cpsr = true ∧ conditionPassed .al wS.cpsr = true) ∧
    (wA.cpsr.m ≠ .user ∧ wA.cpsr.m ≠ .system ∧ CanAdvance wA ∧ ∀ n a, QuietWords .read n a wA) :=
  ⟨rfl, by decide, by decide, by decide, advances.1, fun _ _ => (quiet_words _ _ _).1⟩

theorem witness_loadMultipleReturn :
    (Instr.ldm3 { cond := .al, p := false, u := true, w := true, rn := 13, list := 0 }).restriction = none ∧
    (Instr.ldm3 { cond := .al, p := false, u := true, w := false, rn := 13, list := 0x7FFF }).restriction = none ∧
    conditionPassed .al wA.cpsr = true ∧ (∀ n a, QuietWords .read n a wA) ∧ wA.cpsr.m.hasSpsr = true ∧ wU.cpsr.m.hasSpsr = false :=
  ⟨rfl, rfl, passes.1, fun _ _ => (quiet_words _ _ _).1, rfl, rfl⟩

theorem witness_storeMultiple :
    (Instr.stm1 { cond := .al, p := true, u := false, w := true, rn := 0, list := 0xFFFF }).restriction = none ∧
    (Instr.stm2 { cond := .al, p := false, u := true, w := false, rn := 0, list := 0xFFFF }).restriction = none ∧
    wA.mem.wf = true ∧ CanAdvance wA ∧ (∀ n a, QuietWords .write n a wA) ∧ wA.cpsr.m ≠ .user ∧ wA.cpsr.m ≠ .system ∧
    wU.cpsr.m = .user ∧ conditionPassed .al wU.cpsr = true :=
  ⟨by decide, by decide, passes.2.2.2.1, advances.1, fun _ _ => (quiet_words _ _ _).1, by decide, by decide, rfl, passes.2.1⟩

/-- A load whose second word aborts and a store whose first does. -/
theorem witness_blockAborts :
    (let s := abortsAt 4 wA
     let i := Instr.ldm1 { cond := .al, p := false, u := true, w := true, rn := 0, list := 6 }
     i.block s = some (.read, 2, 0#32) ∧ i.Ready s ∧ QuietWords .read 1 0#32 s ∧
      AbortsAt .s .read .word (0#32 + BitVec.ofNat 32 (4 * 1)) s ∧ s.mem.wf = true) ∧
    (let s := abortsAt 0 wA
     let i := Instr.stm2 { cond := .al, p := false, u := true, w := false, rn := 0, list := 6 }
     i.block s = some (.write, 2, 0#32) ∧ i.Ready s ∧ s.cpsr.m.hasSpsr = true ∧
      AbortsAt .n .write .word (0#32 + BitVec.ofNat 32 (4 * 0)) s) := by
  refine ⟨⟨by decide, ⟨rfl, ?_⟩, ?_, ⟨rfl, rfl, by decide⟩, by decide⟩, ⟨by decide, ⟨rfl, ?_⟩, rfl, ⟨rfl, rfl, by decide⟩⟩⟩
  · intro c h
    cases h
    decide
  · intro i h
    obtain rfl : i = 0 := by omega
    exact ⟨rfl, by decide⟩
  · intro c h
    cases h
    decide

theorem witness_unboundCoprocessor :
    conditionPassed .al wU.cpsr = true ∧ wU.coproc[(15#4).toFin] = .unbound ∧ wU.coproc[(0#4).toFin] = .unbound ∧
      caught .undefined wU = false := by decide

/-- V0 with a handler in slot 2 whose coming answer is `r` and whose data are two words. -/
def wH (r : CoprocReply) : State := bound 2 [r] [{ acts := [], word := .const 3 }, { acts := [], word := .const 4 }] wA

theorem witness_coprocessorAnswers :
    (encode (.cdp { cond := .al, op1 := 0, crn := 0, crd := 0, cp := 2, op2 := 0, crm := 0 }) = .arm 0xEE000200#32 ∧
      encode (.mrc { cond := .al, op1 := 0, crn := 0, rd := 0, cp := 2, op2 := 0, crm := 0 }) = .arm 0xEE100210#32 ∧
      encode (.mcr { cond := .al, op1 := 0, crn := 0, rd := 15, cp := 2, op2 := 0, crm := 0 }) = .arm 0xEE00F210#32 ∧
      encode (.ldc { cond := .al, p := true, u := true, n := false, w := false, rn := 0, crd := 0, cp := 2, off8 := 2 }) =
        .arm 0xED900202#32 ∧
      encode (.stc { cond := .al, p := true, u := true, n := false, w := false, rn := 0, crd := 0, cp := 2, off8 := 2 }) =
        .arm 0xED800202#32) ∧
    (∀ r ∈ [CoprocReply.notHandled, .faultTriggered [.abort 4#32], .faultTriggered [], .handled [] (.const 5#32) 0],
      conditionPassed .al (wH r).cpsr = true ∧ (wH r).pc + isz (wH r) ≠ 0#32 ∧
      ∃ h, (wH r).coproc[(2#4).toFin] = .bound h ∧ h.replies = [.leaf r]) ∧
    (let h : Handler := { replies := [.leaf (.faultTriggered [.abort 4#32])], data := [], calls := [] }
     (callHandler 2#4 h (.cdp 0#32) wA).result = .faultTriggered ∧
      (callHandler 2#4 h (.cdp 0#32) wA).state.fault.aborted = some .data) ∧
    (let h : Handler := { replies := [.leaf (.notHandled)], data := [], calls := [] }
     (callHandler 2#4 h (.cdp 0#32) wA).result = .notHandled) ∧
    (let c : Choice DataReply := .ifEq (.reg .svc 3) .value (.leaf { acts := [], word := .instr }) (.leaf { acts := [], word := .number })
     let h : Handler := { replies := [], data := [c], calls := [] }
     ({ wA with coproc := wA.coproc.set 2 (.bound h) } : State).coproc[(2#4).toFin] = .bound h ∧ h.data = c :: []) := by
  refine ⟨by decide, ?_, by decide, by decide, by decide⟩
  intro r hr
  refine ⟨by revert r; decide, by revert r; decide, _, rfl, rfl⟩

theorem witness_coprocessorRegisters :
    let h : Handler := { replies := [.leaf (.handled [] (.const 0x80000000#32) 0)], data := [], calls := [] }
    (wH (.handled [] (.const 0x80000000#32) 0)).coproc[(2#4).toFin] =
        .bound { h with data := [.leaf { acts := [], word := .const 3 }, .leaf { acts := [], word := .const 4 }] } ∧
      (callHandler 2#4 h (.cdp 0#32) wA).result = .handled ∧ (callHandler 2#4 h (.mrc 0#32) wA).result = .handled ∧
      (callHandler 2#4 h (.mcr 0#32 1#32) wA).result = .handled := by decide

theorem witness_loadCoprocessor :
    (Instr.ldc { cond := .al, p := false, u := true, n := false, w := true, rn := 0, crd := 0, cp := 2, off8 := 255 }).restriction =
      none ∧
    (Instr.stc { cond := .al, p := false, u := true, n := false, w := true, rn := 0, crd := 0, cp := 2, off8 := 255 }).restriction =
      none ∧
    (let h : Handler :=
      { replies := [.leaf (.handled [] (.const 0#32) 1)],
        data := [.leaf { acts := [], word := .const 3 }, .leaf { acts := [], word := .const 4 }], calls := [] }
     (callHandler 2#4 h (.ldc 0#32) wA).result = .handled ∧ (callHandler 2#4 h (.stc 0#32) wA).result = .handled ∧
      askedWords 2#4 0#32 2 0 (wH (.handled [] (.const 0#32) 1)) = [3#32, 4#32]) ∧
    (∀ n a, QuietWords .read n a (wH (.handled [] (.const 0#32) 1)) ∧ QuietWords .write n a (wH (.handled [] (.const 0#32) 1))) ∧
    (wH (.handled [] (.const 0#32) 1)).mem.wf = true ∧ CanAdvance wA :=
  ⟨rfl, rfl, by decide, fun _ _ => ⟨fun _ _ => ⟨rfl, rfl⟩, fun _ _ => ⟨rfl, rfl⟩⟩, by decide, advances.1⟩

/-- LDC and STC whose first and second word aborts. -/
theorem witness_loadCoprocessor_aborts :
    (let s := abortsAt 0 (wH (.handled [] (.const 0#32) 1))
     QuietWords .read 0 0#32 s ∧ AbortsAt .n .read .word (0#32 + BitVec.ofNat 32 (4 * 0)) s) ∧
    (let s := abortsAt 4 (wH (.handled [] (.const 0#32) 1))
     QuietWords .write 1 0#32 s ∧ AbortsAt .s .write .word (0#32 + BitVec.ofNat 32 (4 * 1)) s ∧ s.mem.wf = true) := by
  refine ⟨⟨fun i h => absurd h (by omega), rfl, rfl, by decide⟩, ⟨fun i h => ?_, ⟨rfl, rfl, by decide⟩, by decide⟩⟩
  obtain rfl : i = 0 := by omega
  exact ⟨rfl, by decide⟩

/-- Each of the four exceptions alone or first, at a boundary with nothing to catch. -/
theorem witness_boundaryExceptions :
    (let s := abortCall .data 4#32 (lined false true true wU)
     haltAsked s = none ∧ s.pipe.valid = true ∧ s.dbg.catchMask = 0#9 ∧ s.lines.resetReq = false ∧
      s.fault.aborted = some .data) ∧
    (let s := lined false true true wU
     haltAsked s = none ∧ s.fault.aborted ≠ some .data ∧ s.lines.fiqLine = true ∧ s.cpsr.f = false) ∧
    (let s := lined false true true (withCpsr 0x50 wU)
     haltAsked s = none ∧ ¬(s.lines.fiqLine = true ∧ s.cpsr.f = false) ∧ s.lines.irqLine = true ∧ s.cpsr.i = false) ∧
    (let s := { wA with pipe := { wA.pipe with decoded := { word := 0#32, pabort := true } } }
     haltAsked s = none ∧ s.fault.aborted ≠ some .data ∧ ¬(s.lines.fiqLine = true ∧ s.cpsr.f = false) ∧
      ¬(s.lines.irqLine = true ∧ s.cpsr.i = false) ∧ s.pipe.decoded.pabort = true) := by decide

theorem witness_halts :
    ({ wA with dbg := { wA.dbg with stopFlag := true } } : State).dbg.stopFlag = true ∧
    (setRun false (some 0) wA).dbg.stepBudget = some 0 ∧ (setRun false (some 0) wA).dbg.stopFlag = false ∧
    (let s := setCatchMask 0x40#9 (lined false false true wU)
     haltAsked s = none ∧ s.pipe.valid = true ∧ pendingException (clearHalt s) = some .irq ∧
      s.dbg.catchMask.getLsbD Exc.irq.index = true) ∧
    (let s := setCatchMask 0x40#9 (lined false false true (withCpsr 0x10 wI))
     haltAsked s = none ∧ s.pipe.valid = false ∧ pendingException (refill (clearHalt s)) = some .irq ∧
      s.dbg.catchMask.getLsbD Exc.irq.index = true) ∧
    (setCatchMask 4#9 wA).dbg.catchMask.getLsbD 2 = true ∧ (setCatchMask 2#9 wA).dbg.catchMask.getLsbD 1 = true ∧
    conditionPassed .al (setCatchMask 4#9 wA).cpsr = true ∧
    (setCatchMask 2#9 wA).coproc[(2#4).toFin] = .unbound ∧
    (let h : Handler := { replies := [.leaf (.notHandled)], data := [], calls := [] }
     (callHandler 2#4 h (.cdp 0xEE000200#32) (setCatchMask 2#9 wA)).result = .notHandled) := by decide

theorem witness_warmReset :
    let s := lined true true true wU
    haltAsked s = none ∧ s.pipe.valid = true ∧ s.dbg.catchMask.getLsbD 0 = false ∧ s.lines.resetReq = true ∧
      QuietRefill 0#32 false s := ⟨rfl, rfl, rfl, rfl, ⟨rfl, rfl⟩, ⟨rfl, rfl⟩⟩

theorem witness_coldResets :
    ({ Collaborators.quiet with callbacks := [[.setReset true]], hook := [true] } : Collaborators).clearsAborted = true ∧
    ({ Collaborators.quiet with callbacks := [[.setReset true]], hook := [true] } : Collaborators).regions = [] := ⟨rfl, rfl⟩

theorem witness_sessionAccess :
    (14#4 ≠ 15#4) ∧ Mode.fiq ≠ .user ∧ Mode.fiq ≠ .system ∧ (∀ mode ∈ [Mode.user, .fiq, .irq, .svc, .abort, .undef, .system],
      (0#5) ≠ mode.number ∧ (0x80#32).extractLsb' 0 5 ≠ mode.number) ∧ (0xFFFFFFDF#32).extractLsb' 0 5 = Mode.system.number ∧
    getReg 0x10#5 8#4 (writeBank wA 1 8#4 0xF8#32) = some 0#32 ∧ getReg 0x11#5 8#4 (writeBank wA 1 8#4 0xF8#32) = some 0xF8#32 ∧
    (wA.params.getRegPc = .execute ∧
      (let p : Params := { defaultParams with getRegPc := .ahead }
       ({ wA with params := p } : State).params.getRegPc = .ahead ∧ wA.pipe.valid = true ∧ wT.pipe.valid = true)) := by decide

theorem witness_scheduler :
    eventsOk State.reset.sched = true ∧ eventsOk (schedule 3 0 (schedule 5 1 wA).2).2.sched = true := by decide

/-- One node due and one later, with a callback that schedules at delay 0 and sets the IRQ line. -/
theorem witness_eventPasses :
    let s0 := { wA with collab := { wA.collab with callbacks := [[.act (.schedule 0 0), .act (.setIrq true)]] } }
    let s := (schedule 1 0 (schedule 0 0 s0).2).2
    let s1 := (schedule 1 0 (schedule 0 0 wA).2).2
    (eventsOk s.sched = true ∧ s.sched.events = [{ handle := 0, trigger := 0, callback := 0 }, { handle := 1, trigger := 1, callback := 0 }] ∧
      s.ctr.now = 0 ∧ s.collab.callbacks[0]? = some [.act (.schedule 0 0), .act (.setIrq true)]) ∧
    (eventsOk s1.sched = true ∧ s1.collab.callbacks = []) := by decide

/-- Two nodes due at equal times and one later, with callbacks that neither schedule nor cancel. -/
theorem witness_eventPasses_order :
    let s0 := { wA with collab := { wA.collab with callbacks := [[.act (.setIrq true)], [.write 4#32 1#8]] } }
    let s := (schedule 3 0 (schedule 0 1 (schedule 0 0 s0).2).2).2
    eventsOk s.sched = true ∧ (s.sched.events.filter fun n => decide (n.trigger ≤ s.ctr.now)).map EventNode.callback = [0, 1] ∧
      s.collab.callbacks.all (fun acts => acts.all fun x => match x with
        | .act (.schedule _ _) => false
        | .act (.cancel _) => false
        | _ => true) = true := by decide

theorem witness_abortCalls :
    wA.fault.aborted = none ∧ (abortCall .prefetch 4#32 wA).fault.aborted = some .prefetch ∧
      (abortCall .data 4#32 wA).fault.aborted = some .data := by decide

/-- Fetches from the words at `lo` to `hi` abort. -/
def fetchesAbort (lo hi : Nat) (s : State) : State :=
  let r : Region := {
    lo, hi, fetch := true, read := false, write := false, cls := none, aborts := true, storeLands := true, script := [] }
  { s with collab := { s.collab with regions := [r] } }

/-- One fetch that aborts; a refill in which both do, and one in which the first does. -/
theorem witness_abortCalls_fetch :
    AbortsAt (fetchClass 0x8008#32 wA.pipe.lastFetch) .fetch (fetchSize wA) 0x8008#32 (fetchesAbort 0x8008 0x800B wA) ∧
    (let s := fetchesAbort 0x8000 0x8007 wA
     AbortsAt .n .fetch (fetchSize s) s.pc s ∧ AbortsAt .s .fetch (fetchSize s) (s.pc + isz s) s) ∧
    (let s := fetchesAbort 0x8000 0x8003 wA
     AbortsAt .n .fetch (fetchSize s) s.pc s ∧ QuietAt .fetch (fetchSize s) (s.pc + isz s) s) :=
  ⟨⟨rfl, rfl, by decide⟩, ⟨⟨rfl, rfl, by decide⟩, ⟨rfl, rfl, by decide⟩⟩, ⟨⟨rfl, rfl, by decide⟩, ⟨rfl, by decide⟩⟩⟩

theorem witness_thumb_data :
    CanAdvance wT ∧ (Instr.tCmpHi { h1 := true, h2 := false, rs := 7, rd := 6 }).restriction = none ∧
    (Instr.tAddHi { h1 := true, h2 := true, rs := 7, rd := 7 }).restriction = none ∧
    (Instr.tMovHi { h1 := false, h2 := true, rs := 7, rd := 0 }).restriction = none :=
  ⟨advances.2.1, rfl, rfl, rfl⟩

theorem witness_thumb_transfers :
    CanAdvance wT ∧ wT.mem.wf = true ∧ (∀ k sz a, QuietAt k sz a wT) ∧ (∀ k n a, QuietWords k n a wT) ∧
    (0x1002#32).getLsbD 0 = false ∧ (Instr.tPush { r := true, list := 0 }).restriction = none ∧
    (Instr.tPop { r := true, list := 0xFF }).restriction = none ∧ (Instr.tPop { r := false, list := 1 }).restriction = none ∧
    (Instr.tStmia { rb := 0, list := 0xFF }).restriction = none ∧ (Instr.tLdmia { rb := 0, list := 0xFF }).restriction = none :=
  ⟨advances.2.1, passes.2.2.2.2, fun _ _ _ => (quiet _ _ _).2.1, fun _ _ _ => (quiet_words _ _ _).2, by decide, rfl, rfl, rfl,
    by decide, by decide⟩

theorem witness_thumbBranches :
    (∀ row ∈ condBranches, ∃ n ∈ [0x0#4, 0x4#4, 0x2#4, 0x8#4, 0x1#4],
      conditionPassed row.2 (withCpsr (n ++ 0x00000B3#28) wT).cpsr = true) ∧
    (∀ row ∈ condBranches, ∃ n ∈ [0x0#4, 0x4#4, 0x2#4, 0x8#4, 0x1#4, 0x5#4],
      conditionPassed row.2 (withCpsr (n ++ 0x00000B3#28) wT).cpsr = false) := by decide

theorem witness_userModeLeftByExceptionOnly :
    wU.cpsr.m = .user ∧ after wU (fun t => t.cpsr.m == .user) = true ∧
      after (withCpsr 0x10 (arm 0xEF000000 [])) (fun t => t.cpsr.m == .svc) = true := by decide

theorem witness_flagsWrittenOnlyBy :
    (Instr.swi { cond := .al, imm24 := 0 }).writesFlags = false ∧
      (match exec (.swi { cond := .al, imm24 := 0 }) wU with | .next _ => true | _ => false) = true := by decide

theorem witness_memoryWrittenOnlyByStores :
    (Instr.swi { cond := .al, imm24 := 0 }).stores = false ∧ Passive wU ∧
      (match exec (.swi { cond := .al, imm24 := 0 }) wU with | .next _ => true | _ => false) = true :=
  ⟨rfl, ⟨rfl, rfl, rfl⟩, by decide⟩

theorem witness_untouchedByEveryStep :
    (after wU (fun _ => true) = true ∧ ∀ b : Fin 16, wU.coproc[b] = .unbound) ∧
    (let s := withCpsr 0x10 (arm 0xEF000000 [])
     after s (fun t => readPhys t.regs (.lr 3) != readPhys s.regs (.lr 3)) = true ∧
      ∀ r, physOf s.cpsr.m.bank r ≠ some (.lr 3)) ∧
    (let s := withMem [(0x1000, 0xAA)] (arm 0xE8D02000 [(0, 0x1000)])
     after s (fun t => readPhys t.regs (.sp 0) != readPhys s.regs (.sp 0)) = true ∧
      ∀ r, physOf s.cpsr.m.bank r ≠ some (.sp 0)) := by decide

theorem witness_retirement :
    (haltAsked wU = none ∧ wU.pipe.valid = true ∧ pendingException wU = none ∧ after wU (fun _ => true) = true) ∧
    (let s := lined false false true wU
     haltAsked s = none ∧ s.pipe.valid = true ∧ pendingException s = some .irq ∧ caught .irq s = false ∧
      after s (fun _ => true) = true) := by decide

theorem witness_stepKeepsInvariant :
    State.reset.Inv = true ∧ after State.reset (fun _ => true) = true ∧ wT.Inv = true ∧ after wT (fun _ => true) = true := by decide

end Sys2Proof.Tests
end

section
/-! What an instruction can do, said once for all of them: the work it does in place, and the way it ends. -/

namespace Sys2Proof

open Sys2Proof.Machine

/-- The registers an instruction writes in the User bank whatever the mode is: the list of an LDM(2)
(spec/46_arm_block_transfer.md R314). -/
def Instr.userList : Instr → List RegNum
  | .ldm2 f => userRegs f
  | _ => []

end Sys2Proof

namespace Sys2Proof.Machine

/-! ## Work in place -/

/-- Cycles were counted, each in the cost too, and neither the clock nor the retirements moved
(spec/20_memory.md R80 to R84). -/
def Charged (k l : Counters) : Prop := ∃ n s i c, l = charge n s i c k

theorem Charged.refl (k : Counters) : Charged k k := ⟨0, 0, 0, 0, rfl⟩

theorem Charged.trans {j k l : Counters} (h : Charged j k) (h' : Charged k l) : Charged j l := by
  obtain ⟨n, s, i, c, rfl⟩ := h
  obtain ⟨n', s', i', c', rfl⟩ := h'
  refine ⟨n + n', s + s', i + i', c + c', ?_⟩
  simp only [charge, Nat.add_assoc, Counters.mk.injEq, true_and]
  omega

theorem countAccess_charged (c : Cls) (k : Nat) (s : State) : Charged s.ctr (countAccess c k s).ctr := by
  cases c
  · exact ⟨k, 0, 0, 0, by simp [charge]⟩
  · exact ⟨0, k, 0, 0, by simp [charge]⟩

theorem charges_charged (row : Cycles) (s : State) : Charged s.ctr (charges row s).ctr :=
  ⟨0, 0, row.i, row.c, by simp [charge, Nat.add_assoc]⟩

/-- What nothing in a step touches: the collaborators' storage (spec/10_state.md R46), the SPSR slots of no mode with an
SPSR (R40), the catch mask (R54), the parameters, and, while no handler is bound, the coprocessor table and the
accumulator (R51). -/
structure Kept (s t : State) : Prop where
  inted : t.inted = s.inted
  lastInted : t.lastInted = s.lastInted
  spsr : ∀ b : Fin 7, (∀ m : Mode, m.hasSpsr = true → m.bank ≠ b) → t.spsr[b] = s.spsr[b]
  catchMask : t.dbg.catchMask = s.dbg.catchMask
  params : t.params = s.params
  handlers : (∀ b : Fin 16, s.coproc[b] = .unbound) → t.coproc = s.coproc ∧ t.acc = s.acc

theorem Kept.refl (s : State) : Kept s s := ⟨rfl, rfl, fun _ _ => rfl, rfl, rfl, fun _ => ⟨rfl, rfl⟩⟩

theorem Kept.trans {s t u : State} (h : Kept s t) (k : Kept t u) : Kept s u where
  inted := k.inted.trans h.inted
  lastInted := k.lastInted.trans h.lastInted
  spsr b hb := (k.spsr b hb).trans (h.spsr b hb)
  catchMask := k.catchMask.trans h.catchMask
  params := k.params.trans h.params
  handlers hu := by
    obtain ⟨hc, ha⟩ := h.handlers hu
    obtain ⟨hc', ha'⟩ := k.handlers (by rwa [hc])
    exact ⟨hc'.trans hc, ha'.trans ha⟩

/-- A change of nothing these fields hold. -/
theorem Kept.of_eq {s t : State} (hi : t.inted = s.inted) (hl : t.lastInted = s.lastInted) (hs : t.spsr = s.spsr)
    (hm : t.dbg.catchMask = s.dbg.catchMask) (hp : t.params = s.params) (hc : t.coproc = s.coproc) (ha : t.acc = s.acc) :
    Kept s t := ⟨hi, hl, fun _ _ => by rw [hs], hm, hp, fun _ => ⟨hc, ha⟩⟩

theorem FetchFrame.kept {s t : State} (h : FetchFrame s t) : Kept s t :=
  .of_eq h.inted h.lastInted h.spsr h.catchMask h.params h.coproc h.acc

theorem CollabFrame.kept {s t : State} (h : CollabFrame s t) : Kept s t := h.access.fetch.kept

/-- What an instruction may have done before it moves the pc or leaves it to an exception. `fl` says whether it may write
the flags, `us` which registers of the User bank it may write beside those of its mode's view. -/
structure Work (fl : Bool) (us : List RegNum) (s u : State) : Prop extends Kept s u where
  pc : u.pc = s.pc
  pipe : u.pipe = s.pipe
  status : u.cpsr = { s.cpsr with n := u.cpsr.n, z := u.cpsr.z, c := u.cpsr.c, v := u.cpsr.v }
  flags : fl = false → u.cpsr = s.cpsr
  sound : Sound s → Sound u
  ctr : Charged s.ctr u.ctr
  regs : ∀ p, (∀ r, physOf s.cpsr.m.bank r ≠ some p) → (∀ r ∈ us, physOf Mode.user.bank r ≠ some p) →
    readPhys u.regs p = readPhys s.regs p

section
variable {fl : Bool} {us : List RegNum} {s t u : State}

theorem Work.mode (h : Work fl us s u) : u.cpsr.m = s.cpsr.m := by rw [h.status]

theorem Work.thumb (h : Work fl us s u) : u.cpsr.t = s.cpsr.t := by rw [h.status]

theorem Work.refl (s : State) : Work fl us s s :=
  { Kept.refl s with
    pc := rfl, pipe := rfl, status := rfl, flags := fun _ => rfl, sound := id, ctr := .refl _, regs := fun _ _ _ => rfl }

theorem Work.trans (h : Work fl us s t) (k : Work fl us t u) : Work fl us s u :=
  { h.toKept.trans k.toKept with
    pc := k.pc.trans h.pc
    pipe := k.pipe.trans h.pipe
    status := by rw [k.status, h.status]
    flags := fun hf => (k.flags hf).trans (h.flags hf)
    sound := fun hs => k.sound (h.sound hs)
    ctr := h.ctr.trans k.ctr
    regs := fun p hv hu => (k.regs p (by rwa [h.mode]) hu).trans (h.regs p hv hu) }

/-! ### Accesses and cycles -/

/-- What an access or the charge of a row does is work. -/
theorem AccessFrame.work (h : AccessFrame s u) (hs : Sound s → Sound u) (hc : Charged s.ctr u.ctr) : Work fl us s u :=
  { h.fetch.kept with
    pc := h.pc, pipe := h.pipe, status := by rw [h.cpsr], flags := fun _ => h.cpsr, sound := hs, ctr := hc,
    regs := fun _ _ _ => by rw [h.regs] }

theorem memRead_work (c : Cls) (sz : Size) (a : Word) (s : State) : Work fl us s (memRead c sz a s).state := by
  refine (memRead_frame c sz a s).work (memRead_sound c sz a) ?_
  simp only [memRead, checkAborted_state, (access_frame ..).ctr]
  exact countAccess_charged c 1 s

theorem memWrite_work (c : Cls) (sz : Size) (a v : Word) (s : State) : Work fl us s (memWrite c sz a v s).state := by
  refine (memWrite_frame c sz a v s).work (memWrite_sound c sz a v) ?_
  simp only [memWrite, checkAborted_state, (access_frame ..).ctr]
  exact countAccess_charged c 1 s

theorem memSwap_work (sz : Size) (a v : Word) (s : State) : Work fl us s (memSwap sz a v s).state := by
  refine (memSwap_frame sz a v s).work (memSwap_sound sz a v) ?_
  simp only [memSwap, checkAborted_state, (access_frame ..).ctr]
  exact countAccess_charged .n 2 s

theorem readWords_work (n : Nat) (c : Cls) (a : Word) (s : State) : Work fl us s (readWords n c a s).state := by
  induction n generalizing c a s with
  | zero => exact .refl s
  | succ n ih =>
    have h1 : Work fl us s _ := memRead_work c .word a s
    unfold readWords
    split
    · rename_i s1 he; rwa [he] at h1
    · rename_i w s1 he
      rw [he] at h1
      have h2 := h1.trans (ih .s (a + 4#32) s1)
      split
      · rename_i s2 he2; rwa [he2] at h2
      · rename_i ws s2 he2; rwa [he2] at h2

theorem writeWords_work (ws : List Word) (c : Cls) (a : Word) (s : State) :
    Work fl us s (writeWords ws c a s).state := by
  induction ws generalizing c a s with
  | nil => exact .refl s
  | cons w ws ih =>
    have h1 : Work fl us s _ := memWrite_work c .word a w s
    unfold writeWords
    split
    · rename_i s1 he; rwa [he] at h1
    · rename_i s1 he; rw [he] at h1; exact h1.trans (ih .s (a + 4#32) s1)

theorem charges_work (row : Cycles) (s : State) : Work fl us s (charges row s) :=
  (charges_frame row s).work (charges_sound row) (charges_charged row s)

theorem Work.charges (h : Work fl us s u) (row : Cycles) : Work fl us s (charges row u) := h.trans (charges_work row u)

/-! ### Registers and status -/

theorem Work.writeReg (h : Work fl us s u) (n : RegNum) (v : Word) : Work fl us s (writeReg u n v) :=
  h.trans
    { Kept.of_eq (by simp) (by simp) (by simp) (by simp) (by simp) (by simp) (by simp) with
      pc := by simp, pipe := by simp, status := by simp, flags := by simp, sound := writeReg_sound n v,
      ctr := by simpa using Charged.refl _, regs := fun _ hv _ => readPhys_writeReg_other _ _ _ (hv n) }

theorem Work.writeUser (h : Work fl us s u) {n : RegNum} (hn : n ∈ us) (v : Word) : Work fl us s (writeUser u n v) := by
  refine h.trans
    { Kept.of_eq (by simp) (by simp) (by simp) (by simp) (by simp) (by simp) (by simp) with
      pc := by simp, pipe := by simp, status := by simp, flags := by simp, sound := fun hs => hs.congr (by simp) (by simp),
      ctr := by simpa using Charged.refl _, regs := fun p _ hu => ?_ }
  have hp := hu n hn
  unfold Machine.writeUser
  rw [writeBank_regs]
  split
  · rename_i q hq; exact readPhys_writePhys_other _ _ (by rintro rfl; exact hp hq)
  · rfl

theorem Work.writeBack (h : Work fl us s u) (wb : Option (RegNum × Word)) : Work fl us s (writeBack wb u) := by
  cases wb with
  | none => exact h
  | some w => exact h.writeReg w.1 w.2

theorem Work.writeLoaded (h : Work fl us s u) (rs : List RegNum) (ws : List Word) : Work fl us s (writeLoaded rs ws u) := by
  induction rs generalizing ws u with
  | nil => exact h
  | cons r rs ih =>
    cases ws with
    | nil => exact h
    | cons w ws => exact ih (h.writeReg r w) ws

theorem Work.writeLoadedUser (h : Work fl us s u) {rs : List RegNum} (hr : rs ⊆ us) (ws : List Word) :
    Work fl us s (writeLoadedUser rs ws u) := by
  induction rs generalizing ws u with
  | nil => exact h
  | cons r rs ih =>
    cases ws with
    | nil => exact h
    | cons w ws =>
      rw [List.cons_subset] at hr
      exact ih (h.writeUser hr.1 w) hr.2 ws

/-- A write of flags, by a form that may. -/
theorem Work.setPsr (h : Work true us s u) {n z c v : Bool} {k : Nat} :
    Work true us s { u with cpsr := { u.cpsr with n, z, c, v }, freeCount := k } :=
  h.trans { Kept.of_eq rfl rfl rfl rfl rfl rfl rfl with
    pc := rfl, pipe := rfl, status := rfl, flags := nofun, sound := id, ctr := .refl _, regs := fun _ _ _ => rfl }

theorem Work.setFlags (h : Work true us s u) (r : AluOut) : Work true us s (setFlags r u) := h.setPsr

theorem Work.setNz (h : Work true us s u) (r : Word) : Work true us s (setNz r u) := h.setPsr

theorem Work.multiplyFlags {b : Bool} (h : Work b us s u) (r : Word) : Work b us s (multiplyFlags b r u) := by
  cases b
  · exact h
  · exact (h.setNz r).setPsr

theorem Work.multiplyFlags64 {b : Bool} (h : Work b us s u) (p : BitVec 64) : Work b us s (multiplyFlags64 b p u) := by
  cases b
  · exact h
  · have hz : Work true us s (setNz64 p u) := h.setPsr
    have hc : Work true us s (freeC (setNz64 p u)) := hz.setPsr
    exact hc.setPsr

/-- A write of the SPSR of a mode that has one. -/
theorem setSpsrOf_work {m : Mode} {v : Word} (h : setSpsrOf m v s = some u) : Work fl us s u := by
  unfold setSpsrOf at h
  split at h <;> cases h
  rename_i hm
  have hk : Kept s { s with spsr := s.spsr.set m.bank v } :=
    { Kept.refl s with spsr := fun b hb => by simp [Fin.val_ne_of_ne (hb m hm)] }
  exact { hk with
    pc := rfl, pipe := rfl, status := rfl, flags := fun _ => rfl, sound := id, ctr := .refl _, regs := fun _ _ _ => rfl }

/-! ### Handlers -/

/-- A call of a handler is work, when the calls of an unbound slot do nothing. -/
theorem HandlerFrame.work (h : HandlerFrame s u) (hs : Sound s → Sound u)
    (hu : (∀ b : Fin 16, s.coproc[b] = .unbound) → u.coproc = s.coproc ∧ u.acc = s.acc) : Work fl us s u where
  inted := h.inted
  lastInted := h.lastInted
  spsr _ _ := by rw [h.spsr]
  catchMask := h.catchMask
  params := h.params
  handlers := hu
  pc := h.pc
  pipe := h.pipe
  status := by rw [h.cpsr]
  flags _ := h.cpsr
  sound := hs
  ctr := by rw [h.ctr]; exact .refl _
  regs _ _ _ := by rw [h.regs]

theorem callHandler_work {cp : BitVec 4} {hd : Handler} (hb : s.coproc[cp.toFin] = .bound hd) (call : HandlerCall) :
    Work fl us s (callHandler cp hd call s).state :=
  (callHandler_frame cp hd call s).work (callHandler_sound cp hd call) fun hu => by
    rw [hu cp.toFin] at hb; cases hb

theorem callData_work (cp : BitVec 4) (call : HandlerCall) (s : State) : Work fl us s (callData cp call s).2 := by
  refine (callData_frame cp call s).work (callData_sound cp call) fun hu => ?_
  simp only [callData, hu cp.toFin, and_self]

theorem giveWords_work (cp : BitVec 4) (instr : Word) (k : Nat) (ws : List Word) (s : State) :
    Work fl us s (giveWords cp instr k ws s) := by
  induction ws generalizing k s with
  | nil => exact .refl s
  | cons w ws ih => exact (callData_work _ _ _).trans (ih _ _)

theorem storeHandlerWords_work (cp : BitVec 4) (instr : Word) (n k : Nat) (c : Cls) (a : Word) (s : State) :
    Work fl us s (storeHandlerWords cp instr n k c a s).state := by
  induction n generalizing k c a s with
  | zero => exact .refl s
  | succ n ih =>
    have h1 : Work fl us s _ := (callData_work cp (.stcData instr k) s).trans
      (memWrite_work c .word a (callData cp (.stcData instr k) s).1 _)
    unfold storeHandlerWords
    simp only []
    split
    · rename_i s1 he; rwa [he] at h1
    · rename_i s1 he; rw [he] at h1; exact h1.trans (ih _ _ _ s1)

end

/-! ## The ends of an instruction -/

/-- How an instruction that started in `s` ended in `t`, by way of the state `u` its work left: with the plain advance;
with a branch, which may change the instruction set (BX); with the return from an exception; with a CPSR write by MSR, a
branch when it changes the mode; or with an exception, entered or caught, before any flag was written. -/
inductive Ends (fl : Bool) (us : List RegNum) (s t : State) : Prop
  | next (u : State) (w : Work fl us s u) (e : t = forward u)
  | branch (v : Word) (u : State) (w : Work fl us s u) (e : t = branchTo v u)
  | exchange (v : Word) (b : Bool) (u : State) (w : Work fl us s u)
      (e : t = branchTo v { u with cpsr := { u.cpsr with t := b } })
  | restore (v : Word) (p : Psr) (u : State) (w : Work fl us s u) (hf : fl = true) (hs : u.cpsr.m.hasSpsr = true)
      (hp : psrOfWord u.spsr[u.cpsr.m.bank] = some p) (e : t = branchTo v { u with cpsr := p })
  | status (mask : BitVec 4) (operand : Word) (p : Psr) (u : State) (w : Work false us s u)
      (hf : fl = false → mask.getLsbD 3 = false) (hp : psrOfWord (msrWord mask operand s) = some p)
      (ht : p.t = u.cpsr.t)
      (e : t = if p.m = u.cpsr.m then forward { u with cpsr := p } else branchTo (u.pc + isz u) { u with cpsr := p })
  | entered (x : Exc) (u : State) (w : Work false us s u) (e : t = enter true x u)
  | caught (x : Exc) (u : State) (w : Work false us s u) (e : t = caughtInline x u)

section
variable {fl : Bool} {us : List RegNum} {s t u : State}

theorem advance_ends (w : Work fl us s u) (h : advance u = .next t) : Ends fl us s t := .next u w (advance_cases h)

theorem branchTo_ends (w : Work fl us s u) {v : Word} (h : Host.Outcome.next (branchTo v u) = (.next t : Out)) :
    Ends fl us s t := by cases h; exact .branch v u w rfl

theorem jump_ends (w : Work fl us s u) {v : Word} (h : jump v u = .next t) : Ends fl us s t :=
  .branch v u w (jump_cases h).2

theorem branchExchange_ends (w : Work fl us s u) {v : Word} (h : branchExchange v u = .next t) : Ends fl us s t :=
  .exchange v _ u w (branchExchange_cases h).2

theorem exceptionReturn_ends (w : Work true us s u) {v : Word} (h : exceptionReturn v u = .next t) : Ends true us s t := by
  obtain ⟨p, hs, hp, -, e⟩ := exceptionReturn_cases h
  exact .restore v p u w rfl hs hp e

theorem raiseState_ends (w : Work false us s u) (x : Exc) : Ends fl us s (raiseState x u) := by
  unfold raiseState
  split
  · exact .caught x u w rfl
  · exact .entered x u w rfl

theorem trap_ends {x : Exc} (h : trap x s = .next t) : Ends fl us s t := by
  rcases trap_cases h with ⟨-, e⟩ | ⟨-, e⟩
  · exact .entered x _ (charges_work _ s) e
  · exact .caught x s (.refl s) e

/-- A guarded meaning ends as its body, or with the plain advance. -/
theorem guarded_ends {c : Cond} {ch : Option Restriction} {body : State → Out} (h : guarded c ch body s = .next t)
    (hb : body s = .next t → Ends fl us s t) : Ends fl us s t := by
  rcases guarded_cases h with ⟨-, ha⟩ | ⟨-, -, hn⟩
  · exact advance_ends (.refl s) ha
  · exact hb hn

/-! ### Data processing and multiplies -/

theorem writeResult_ends {b : Bool} (w : Work b us s u) {rd : RegNum} {r : AluOut} (h : writeResult b rd r u = .next t) :
    Ends b us s t := by
  rcases writeResult_cases h with ⟨-, rfl, hr⟩ | ⟨-, -, -, e⟩ | ⟨-, e⟩
  · exact exceptionReturn_ends w hr
  · exact .branch _ u w e
  · refine .next _ ?_ e
    cases b
    · exact w.writeReg rd r.value
    · exact (w.writeReg rd r.value).setFlags r

theorem dataA1_ends {op : AluOp} {f : A1} (h : dataA1 op f s = .next t) : Ends f.s us s t :=
  guarded_ends h (writeResult_ends (charges_work _ s))

theorem dataA2_ends {op : AluOp} {f : A2} (h : dataA2 op f s = .next t) : Ends f.s us s t :=
  guarded_ends h (writeResult_ends (charges_work _ s))

theorem dataA3_ends {op : AluOp} {f : A3} (h : dataA3 op f s = .next t) : Ends f.s us s t :=
  guarded_ends h (writeResult_ends (charges_work _ s))

theorem moveA1_ends {op : AluOp} {f : A1Mov} (h : moveA1 op f s = .next t) : Ends f.s us s t :=
  guarded_ends h (writeResult_ends (charges_work _ s))

theorem moveA2_ends {op : AluOp} {f : A2Mov} (h : moveA2 op f s = .next t) : Ends f.s us s t :=
  guarded_ends h (writeResult_ends (charges_work _ s))

theorem moveA3_ends {op : AluOp} {f : A3Mov} (h : moveA3 op f s = .next t) : Ends f.s us s t :=
  guarded_ends h (writeResult_ends (charges_work _ s))

theorem compareA1_ends {op : AluOp} {f : A1Cmp} (h : compareA1 op f s = .next t) : Ends true us s t :=
  guarded_ends h (advance_ends ((charges_work _ s).setFlags _))

theorem compareA2_ends {op : AluOp} {f : A2Cmp} (h : compareA2 op f s = .next t) : Ends true us s t :=
  guarded_ends h (advance_ends ((charges_work _ s).setFlags _))

theorem compareA3_ends {op : AluOp} {f : A3Cmp} (h : compareA3 op f s = .next t) : Ends true us s t :=
  guarded_ends h (advance_ends ((charges_work _ s).setFlags _))

theorem finishMul_ends {b : Bool} {rd : RegNum} {r : Word} {row : Cycles} (h : finishMul b rd r row s = .next t) :
    Ends b us s t :=
  advance_ends (((charges_work row s).writeReg rd r).multiplyFlags r) h

theorem finishMull_ends {f : Mull} {p : BitVec 64} {row : Cycles} (h : finishMull f p row s = .next t) :
    Ends f.s us s t :=
  advance_ends ((((charges_work row s).writeReg _ _).writeReg _ _).multiplyFlags64 p) h

theorem thumbArith_ends {op : AluOp} {rd : LoReg} {a b : Word} (h : thumbArith op rd a b s = .next t) : Ends true us s t :=
  advance_ends (((charges_work _ s).writeReg _ _).setFlags _) h

theorem thumbShiftImm_ends {ty : ShiftType} {f : T1} (h : thumbShiftImm ty f s = .next t) : Ends true us s t :=
  advance_ends (((charges_work _ s).writeReg _ _).setFlags _) h

theorem thumbShiftReg_ends {ty : ShiftType} {f : T4} (h : thumbShiftReg ty f s = .next t) : Ends true us s t :=
  advance_ends (((charges_work _ s).writeReg _ _).setFlags _) h

theorem thumbLogical_ends {rd : LoReg} {r : Word} (h : thumbLogical rd r s = .next t) : Ends true us s t :=
  advance_ends (((charges_work _ s).writeReg _ _).setNz _) h

theorem thumbCompare_ends {op : AluOp} {a b : Word} (h : thumbCompare op a b s = .next t) : Ends true us s t :=
  advance_ends ((charges_work _ s).setFlags _) h

theorem plainResult_ends {rd : RegNum} {r : Word} (h : plainResult rd r s = .next t) : Ends fl us s t :=
  advance_ends ((charges_work _ s).writeReg rd r) h

theorem highResult_ends {hd : RegNum} {r : Word} (h : highResult hd r s = .next t) : Ends fl us s t := by
  unfold highResult at h
  split at h
  · exact branchTo_ends (charges_work _ s) h
  · exact advance_ends ((charges_work _ s).writeReg hd r) h

/-! ### Status registers -/

theorem writeSpsr_ends (w : Work fl us s u) {mask : BitVec 4} {operand : Word} (h : writeSpsr mask operand u = .next t) :
    Ends fl us s t := by
  unfold writeSpsr at h
  split at h
  · cases h
  · split at h
    · cases h
    · rename_i u' he; exact advance_ends (w.trans (setSpsrOf_work he)) h

theorem writeCpsr_ends (w : Work false us s u) {mask : BitVec 4} {operand : Word}
    (hf : fl = false → mask.getLsbD 3 = false) (h : writeCpsr (msrWord mask operand s) u = .next t) : Ends fl us s t := by
  unfold writeCpsr at h
  split at h
  · cases h
  · rename_i p hp
    split at h
    · cases h
    · rename_i ht
      refine .status mask operand p u w hf hp (by simpa using ht) ?_
      split at h
      · rename_i hm; cases h; rw [if_neg hm]
      · rename_i hm; rw [if_pos (by simpa using hm)]; exact advance_cases h

theorem moveToStatus_ends {r : Bool} {mask : BitVec 4} {operand : Word} (h : moveToStatus r mask operand s = .next t) :
    Ends (!r && mask.getLsbD 3) us s t := by
  unfold moveToStatus at h
  cases r with
  | true => exact writeSpsr_ends (charges_work _ s) h
  | false => exact writeCpsr_ends (charges_work _ s) (by simp) h

theorem execMrs_ends {f : Mrs} (h : execMrs f s = .next t) : Ends fl us s t :=
  guarded_ends h fun h => by
    split at h
    · cases h
    · exact advance_ends ((charges_work _ s).writeReg _ _) h

/-! ### Transfers -/

theorem loadReg_ends {op : LoadOp} {rd : RegNum} {a : Word} {wb : Option (RegNum × Word)}
    (h : loadReg op rd a wb s = .next t) : Ends fl us s t := by
  have w {fl} : Work fl us s _ := memRead_work .n op.size a s
  obtain ⟨-, ⟨s1, he, rfl⟩ | ⟨v, s1, he, hf⟩⟩ := loadReg_cases h <;> rw [he] at w
  · exact raiseState_ends w _
  · rcases finishLoad_cases hf with ⟨-, e⟩ | ⟨-, e⟩
    · exact .branch _ _ ((w.charges _).writeBack wb) e
    · exact .next _ (((w.charges _).writeBack wb).writeReg rd _) e

theorem storeReg_ends {sz : Size} {rd : RegNum} {a : Word} {wb : Option (RegNum × Word)}
    (h : storeReg sz rd a wb s = .next t) : Ends fl us s t := by
  have w {fl} : Work fl us s _ := memWrite_work .n sz a (storeValue s rd) s
  obtain ⟨-, ⟨s1, he, rfl⟩ | ⟨s1, he, e⟩⟩ := storeReg_cases h <;> rw [he] at w
  · exact raiseState_ends w _
  · exact .next _ ((w.charges _).writeBack wb) e

theorem transfer_ends {x : Transfer} {rd : RegNum} {a : Word} {wb : Option (RegNum × Word)}
    (h : transfer x rd a wb s = .next t) : Ends fl us s t := by
  cases x with
  | load op => exact loadReg_ends h
  | store sz => exact storeReg_ends h

theorem transferImmPre_ends {x : Transfer} {b : Bool} {f : LsImmPre} (h : transferImmPre x b f s = .next t) :
    Ends fl us s t := guarded_ends h transfer_ends

theorem transferImmPost_ends {x : Transfer} {b : Bool} {f : LsImmPost} (h : transferImmPost x b f s = .next t) :
    Ends fl us s t := guarded_ends h transfer_ends

theorem transferRegPre_ends {x : Transfer} {b : Bool} {f : LsRegPre} (h : transferRegPre x b f s = .next t) :
    Ends fl us s t := guarded_ends h transfer_ends

theorem transferRegPost_ends {x : Transfer} {b : Bool} {f : LsRegPost} (h : transferRegPost x b f s = .next t) :
    Ends fl us s t := guarded_ends h transfer_ends

theorem transferHwReg_ends {x : Transfer} {f : HwReg} (h : transferHwReg x f s = .next t) : Ends fl us s t :=
  guarded_ends h transfer_ends

theorem transferHwImm_ends {x : Transfer} {f : HwImm} (h : transferHwImm x f s = .next t) : Ends fl us s t :=
  guarded_ends h transfer_ends

theorem transferT7_ends {x : Transfer} {f : T7} (h : transferT7 x f s = .next t) : Ends fl us s t := transfer_ends h

theorem transferT9_ends {x : Transfer} {k : Nat} {f : T9} (h : transferT9 x k f s = .next t) : Ends fl us s t :=
  transfer_ends h

theorem swap_ends {op : LoadOp} {f : Swp} (h : swap op f s = .next t) : Ends fl us s t :=
  guarded_ends h fun h => by
    have w {fl} : Work fl us s _ := memSwap_work op.size (readReg s f.rn) (readReg s f.rm) s
    split at h <;> rename_i he <;> rw [he] at w
    · cases h; exact raiseState_ends w _
    · exact advance_ends ((w.charges _).writeReg _ _) h

/-- A block load ends with the Data Abort, or as what follows the reads does. -/
theorem loadWords_ends {n : Nat} {a : Word} {k : List Word → State → Out} (h : loadWords n a k s = .next t)
    (hk : ∀ ws s1, Work fl us s s1 → k ws s1 = .next t → Ends fl us s t) : Ends fl us s t := by
  have w {fl} : Work fl us s _ := readWords_work n .n a s
  obtain ⟨s1, he, rfl⟩ | ⟨ws, s1, he, -, hn⟩ := loadWords_cases h <;> rw [he] at w
  · exact raiseState_ends w _
  · exact hk ws s1 w hn

/-- A block store ends with the Data Abort, or as what follows the writes does. -/
theorem storeWords_ends {ws : List Word} {a : Word} {k : State → Out} (h : storeWords ws a k s = .next t)
    (hk : ∀ s1, Work fl us s s1 → k s1 = .next t → Ends fl us s t) : Ends fl us s t := by
  have w {fl} : Work fl us s _ := writeWords_work ws .n a s
  obtain ⟨s1, he, rfl⟩ | ⟨s1, he, hn⟩ := storeWords_cases h <;> rw [he] at w
  · exact raiseState_ends w _
  · exact hk s1 w hn

theorem execLdm1_ends {f : Block} (h : execLdm1 f s = .next t) : Ends fl us s t :=
  guarded_ends h fun h => loadWords_ends h fun ws s1 w h => by
    have w2 := ((w.charges s1.params.cycles.loadMultiple).writeBack (wbOf f.w f.rn (addrBlock f s))).writeLoaded
      (listRegs f.list) ws
    simp only [] at h
    split at h
    · exact jump_ends w2 h
    · exact advance_ends w2 h

theorem execLdm2_ends {f : BlockUser} (h : execLdm2 f s = .next t) : Ends fl (userRegs f) s t :=
  guarded_ends h fun h => by
    split at h
    · exact loadWords_ends h fun ws s1 w => advance_ends ((w.charges _).writeLoadedUser (List.Subset.refl _) ws)
    · cases h

theorem execLdm3_ends {f : BlockUser} (h : execLdm3 f s = .next t) : Ends true us s t :=
  guarded_ends h fun h => loadWords_ends h fun _ _ w =>
    exceptionReturn_ends (((w.charges _).writeBack _).writeLoaded _ _)

theorem execStm1_ends {f : Block} (h : execStm1 f s = .next t) : Ends fl us s t :=
  guarded_ends h fun h => storeWords_ends h fun _ w => advance_ends ((w.charges _).writeBack _)

theorem execStm2_ends {f : Block} (h : execStm2 f s = .next t) : Ends fl us s t :=
  guarded_ends h fun h => by
    split at h
    · exact storeWords_ends h fun _ w => advance_ends (w.charges _)
    · cases h

theorem execTPush_ends {f : T14} (h : execTPush f s = .next t) : Ends fl us s t :=
  storeWords_ends (checked_cases h).2 fun _ w => advance_ends ((w.charges _).writeReg _ _)

theorem execTPop_ends {f : T14} (h : execTPop f s = .next t) : Ends fl us s t :=
  loadWords_ends (checked_cases h).2 fun ws s1 w h => by
    have w2 := ((w.charges s1.params.cycles.loadMultiple).writeReg spNum (readReg s spNum + listBytes (popRegs f))).writeLoaded
      (popRegs f) ws
    simp only [] at h
    split at h
    · exact branchTo_ends w2 h
    · exact advance_ends w2 h

theorem execTStmia_ends {f : T15} (h : execTStmia f s = .next t) : Ends fl us s t :=
  storeWords_ends (checked_cases h).2 fun _ w => advance_ends ((w.charges _).writeReg _ _)

theorem execTLdmia_ends {f : T15} (h : execTLdmia f s = .next t) : Ends fl us s t :=
  loadWords_ends (checked_cases h).2 fun ws s1 w h => by
    refine advance_ends (Work.writeLoaded ?_ _ _) h
    split
    · exact w.charges _
    · exact (w.charges _).writeReg _ _

/-! ### Branches -/

theorem branchIf_ends {c : Cond} {f : T16} (h : branchIf c f s = .next t) : Ends fl us s t := by
  unfold branchIf at h
  split at h
  · exact branchTo_ends (charges_work _ s) h
  · exact advance_ends (.refl s) h

/-! ### Coprocessors -/

/-- A coprocessor instruction ends with Undefined, with the fault its handler triggered, or as a handled call goes on. -/
theorem withHandler_ends {cp : BitVec 4} {call : HandlerCall} {k : CoprocAnswer → Out}
    (h : withHandler cp call k s = .next t)
    (hk : ∀ a : CoprocAnswer, (∀ {fl}, Work fl us s a.state) → k a = .next t → Ends fl us s t) : Ends fl us s t := by
  obtain ⟨-, rfl⟩ | ⟨hd, hb, ⟨-, rfl⟩ | ⟨-, hf⟩ | ⟨-, hn⟩⟩ := withHandler_cases h
  · exact raiseState_ends (.refl s) _
  · exact raiseState_ends (callHandler_work hb call) _
  · obtain ⟨-, rfl⟩ | ⟨-, e⟩ := faultTriggered_cases hf
    · exact raiseState_ends (callHandler_work hb call) _
    · exact .next _ (callHandler_work hb call) e
  · exact hk _ (callHandler_work hb call) hn

theorem execCdp_ends {f : CpDp} (h : execCdp f s = .next t) : Ends fl us s t :=
  guarded_ends h fun h => withHandler_ends h fun _ w => advance_ends (w.charges _)

theorem execMrc_ends {f : CpRt} (h : execMrc f s = .next t) : Ends (isPc f.rd) us s t :=
  guarded_ends h fun h => withHandler_ends h fun a w h => by
    simp only [] at h
    split at h
    · rename_i hd
      rw [show isPc f.rd = true by simp [isPc, hd]]
      exact advance_ends (w.charges _).setPsr h
    · exact advance_ends ((w.charges _).writeReg _ _) h

theorem execMcr_ends {f : CpRt} (h : execMcr f s = .next t) : Ends fl us s t :=
  guarded_ends h fun h => withHandler_ends h fun _ w => advance_ends (w.charges _)

theorem execLdc_ends {f : CpLs} (h : execLdc f s = .next t) : Ends fl us s t :=
  guarded_ends h fun h => withHandler_ends h fun a w h => by
    have w2 {fl} : Work fl us s _ := w.trans (readWords_work a.words .n (addrCp f a.state).addr a.state)
    have h := (checked_cases h).2
    split at h <;> rename_i he <;> rw [he] at w2
    · cases h; exact raiseState_ends w2 _
    · exact advance_ends (((w2.charges _).writeBack _).trans (giveWords_work _ _ _ _ _)) h

theorem execStc_ends {f : CpLs} (h : execStc f s = .next t) : Ends fl us s t :=
  guarded_ends h fun h => withHandler_ends h fun a w h => by
    have w2 {fl} : Work fl us s _ := w.trans
      (storeHandlerWords_work f.cp (encCpLs 0#1 f) a.words 0 .n (addrCp f a.state).addr a.state)
    have h := (checked_cases h).2
    split at h <;> rename_i he <;> rw [he] at w2
    · cases h; exact raiseState_ends w2 _
    · exact advance_ends ((w2.charges _).writeBack _) h

end

/-! ### Every instruction -/

/-- Every instruction ends in one of these ways: each has one of the shapes above. -/
theorem exec_ends {i : Instr} {s t : State} (h : exec i s = .next t) : Ends i.writesFlags i.userList s t := by
  cases i with
  | andA1 f | eorA1 f | subA1 f | rsbA1 f | addA1 f | adcA1 f | sbcA1 f | rscA1 f | orrA1 f | bicA1 f =>
    exact dataA1_ends h
  | andA2 f | eorA2 f | subA2 f | rsbA2 f | addA2 f | adcA2 f | sbcA2 f | rscA2 f | orrA2 f | bicA2 f =>
    exact dataA2_ends h
  | andA3 f | eorA3 f | subA3 f | rsbA3 f | addA3 f | adcA3 f | sbcA3 f | rscA3 f | orrA3 f | bicA3 f =>
    exact dataA3_ends h
  | tstA1 f | teqA1 f | cmpA1 f | cmnA1 f => exact compareA1_ends h
  | tstA2 f | teqA2 f | cmpA2 f | cmnA2 f => exact compareA2_ends h
  | tstA3 f | teqA3 f | cmpA3 f | cmnA3 f => exact compareA3_ends h
  | movA1 f | mvnA1 f => exact moveA1_ends h
  | movA2 f | mvnA2 f => exact moveA2_ends h
  | movA3 f | mvnA3 f => exact moveA3_ends h
  | mrs f => exact execMrs_ends h
  | msrImm f => rw [exec_msrImm] at h; exact guarded_ends h moveToStatus_ends
  | msrReg f => rw [exec_msrReg] at h; exact guarded_ends h moveToStatus_ends
  | bx f => rw [exec_bx] at h; exact guarded_ends h (branchExchange_ends (charges_work _ s))
  | mul f => rw [exec_mul] at h; exact guarded_ends h finishMul_ends
  | mla f => rw [exec_mla] at h; exact guarded_ends h finishMul_ends
  | umull f => rw [exec_umull] at h; exact guarded_ends h finishMull_ends
  | umlal f => rw [exec_umlal] at h; exact guarded_ends h finishMull_ends
  | smull f => rw [exec_smull] at h; exact guarded_ends h finishMull_ends
  | smlal f => rw [exec_smlal] at h; exact guarded_ends h finishMull_ends
  | swp f | swpb f => exact swap_ends h
  | strhReg f | ldrhReg f | ldrsbReg f | ldrshReg f => exact transferHwReg_ends h
  | strhImm f | ldrhImm f | ldrsbImm f | ldrshImm f => exact transferHwImm_ends h
  | ldrImmPre f | ldrbImmPre f | strImmPre f | strbImmPre f => exact transferImmPre_ends h
  | ldrImmPost f | ldrtImm f | ldrbImmPost f | ldrbtImm f | strImmPost f | strtImm f | strbImmPost f | strbtImm f =>
    exact transferImmPost_ends h
  | ldrRegPre f | ldrbRegPre f | strRegPre f | strbRegPre f => exact transferRegPre_ends h
  | ldrRegPost f | ldrtReg f | ldrbRegPost f | ldrbtReg f | strRegPost f | strtReg f | strbRegPost f | strbtReg f =>
    exact transferRegPost_ends h
  | undefined f => rw [exec_undefined] at h; exact guarded_ends h trap_ends
  | swi f => rw [exec_swi] at h; exact guarded_ends h trap_ends
  | ldm1 f => exact execLdm1_ends h
  | ldm2 f => exact execLdm2_ends h
  | ldm3 f => exact execLdm3_ends h
  | stm1 f => exact execStm1_ends h
  | stm2 f => exact execStm2_ends h
  | b f => rw [exec_b] at h; exact guarded_ends h (branchTo_ends (charges_work _ s))
  | bl f => rw [exec_bl] at h; exact guarded_ends h (branchTo_ends ((charges_work _ s).writeReg _ _))
  | ldc f => exact execLdc_ends h
  | stc f => exact execStc_ends h
  | cdp f => exact execCdp_ends h
  | mrc f => exact execMrc_ends h
  | mcr f => exact execMcr_ends h
  | tLslImm f | tLsrImm f | tAsrImm f => exact thumbShiftImm_ends h
  | tAddReg f | tSubReg f | tAddImm3 f | tSubImm3 f | tAddImm8 f | tSubImm8 f | tAdc f | tSbc f | tNeg f =>
    exact thumbArith_ends h
  | tMovImm f | tAnd f | tEor f | tOrr f | tBic f | tMvn f => exact thumbLogical_ends h
  | tCmpImm f | tCmp f | tCmn f => exact thumbCompare_ends h
  | tLslReg f | tLsrReg f | tAsrReg f | tRorReg f => exact thumbShiftReg_ends h
  | tTst f => rw [exec_tTst] at h; exact advance_ends ((charges_work _ s).setNz _) h
  | tBlHi f => rw [exec_tBlHi] at h; exact advance_ends ((charges_work _ s).writeReg _ _) h
  | tMul f => rw [exec_tMul] at h; exact finishMul_ends (checked_cases h).2
  | tAddHi f => rw [exec_tAddHi] at h; exact highResult_ends (checked_cases h).2
  | tMovHi f => rw [exec_tMovHi] at h; exact highResult_ends (checked_cases h).2
  | tCmpHi f => rw [exec_tCmpHi] at h; exact thumbCompare_ends (checked_cases h).2
  | tBx f => rw [exec_tBx] at h; exact branchExchange_ends (charges_work _ s) h
  | tLdrPc f => rw [exec_tLdrPc] at h; exact transfer_ends h
  | tStrSp f => rw [exec_tStrSp] at h; exact transfer_ends h
  | tLdrSp f => rw [exec_tLdrSp] at h; exact transfer_ends h
  | tStrReg f => rw [exec_tStrReg] at h; exact transferT7_ends h
  | tStrbReg f => rw [exec_tStrbReg] at h; exact transferT7_ends h
  | tLdrReg f => rw [exec_tLdrReg] at h; exact transferT7_ends h
  | tLdrbReg f => rw [exec_tLdrbReg] at h; exact transferT7_ends h
  | tStrhReg f => rw [exec_tStrhReg] at h; exact transferT7_ends h
  | tLdrhReg f => rw [exec_tLdrhReg] at h; exact transferT7_ends h
  | tLdsb f => rw [exec_tLdsb] at h; exact transferT7_ends h
  | tLdsh f => rw [exec_tLdsh] at h; exact transferT7_ends h
  | tStrImm f => rw [exec_tStrImm] at h; exact transferT9_ends h
  | tLdrImm f => rw [exec_tLdrImm] at h; exact transferT9_ends h
  | tStrbImm f => rw [exec_tStrbImm] at h; exact transferT9_ends h
  | tLdrbImm f => rw [exec_tLdrbImm] at h; exact transferT9_ends h
  | tStrhImm f => rw [exec_tStrhImm] at h; exact transferT9_ends h
  | tLdrhImm f => rw [exec_tLdrhImm] at h; exact transferT9_ends h
  | tAddPc f | tAddSp f | tAddToSp f | tSubFromSp f => exact plainResult_ends h
  | tPush f => exact execTPush_ends h
  | tPop f => exact execTPop_ends h
  | tStmia f => exact execTStmia_ends h
  | tLdmia f => exact execTLdmia_ends h
  | tBEq f | tBNe f | tBCs f | tBCc f | tBMi f | tBPl f | tBVs f | tBVc f | tBHi f | tBLs f | tBGe f | tBLt f | tBGt f
    | tBLe f =>
    exact branchIf_ends h
  | tSwi f => exact trap_ends h
  | tB f => rw [exec_tB] at h; exact branchTo_ends (charges_work _ s) h
  | tBlLo f => rw [exec_tBlLo] at h; exact branchTo_ends ((charges_work _ s).writeReg _ _) h

end Sys2Proof.Machine
end

section
/-! The invariant (spec/10_state.md R57; spec/70_reset_and_hazards.md R541) through every operation of a step. -/

namespace Sys2Proof.Machine

/-- The order of the slots as a proposition. -/
theorem slotsOk_iff (s : State) : slotsOk s = true ↔ (s.pipe.valid = true →
    s.pipe.lastFetch = { valid := true, addr := s.pc + isz s, size := isz s } ∧
      (s.cpsr.t = true → s.pipe.decoded.word.toNat < 65536 ∧ s.pipe.loaded.word.toNat < 65536)) := by
  cases hv : s.pipe.valid <;> cases ht : s.cpsr.t <;> simp [slotsOk, hv, ht]

/-- The parts of the invariant. -/
theorem inv_iff (s : State) :
    s.Inv = true ↔ Sound s ∧ aligned s.cpsr.t s.pc = true ∧ countersOk s.ctr = true ∧ slotsOk s = true := by
  simp only [State.Inv, Sound, Bool.and_eq_true]; tauto

/-! ### The pc and the counters -/

/-- The stored pc is aligned (spec/10_state.md R31). -/
theorem aligned_alignPc (t : Bool) (v : Word) : aligned t (alignPc t v) = true := by
  cases t <;> simp [aligned, alignPc, BitVec.and_assoc]

/-- Clearing the low bits of a word. -/
theorem and_highMask (v : Word) {k : Nat} : v &&& (BitVec.allOnes 32 <<< k) = v >>> k <<< k := by
  ext i hi
  simp only [BitVec.getElem_and, BitVec.getElem_shiftLeft, BitVec.getElem_allOnes]
  by_cases h : i < k
  · simp [h]
  · simp [h, BitVec.getLsbD_eq_getElem hi, Nat.add_sub_cancel' (Nat.le_of_not_lt h)]

/-- A word whose low bits are clear is a multiple. -/
theorem highMask_iff (v : Word) (k : Nat) : v &&& (BitVec.allOnes 32 <<< k) = v ↔ v.toNat % 2 ^ k = 0 := by
  have h := Nat.div_add_mod v.toNat (2 ^ k)
  rw [and_highMask, ← BitVec.toNat_inj, BitVec.toNat_shiftLeft, BitVec.toNat_ushiftRight, Nat.shiftRight_eq_div_pow,
    Nat.shiftLeft_eq, Nat.mod_eq_of_lt (Nat.lt_of_le_of_lt (Nat.div_mul_le_self _ _) v.isLt), Nat.mul_comm]
  omega

/-- An aligned address is a multiple of the instruction's size. -/
theorem aligned_iff (t : Bool) (v : Word) : aligned t v = true ↔ v.toNat % (if t then 2 else 4) = 0 := by
  cases t
  · simpa [aligned, alignPc] using highMask_iff v 2
  · simpa [aligned, alignPc] using highMask_iff v 1

/-- The plain advance keeps the pc aligned. -/
theorem aligned_next {s : State} (h : aligned s.cpsr.t s.pc = true) : aligned s.cpsr.t (s.pc + isz s) = true := by
  rw [aligned_iff] at h ⊢
  unfold isz
  generalize s.cpsr.t = t at h ⊢
  cases t <;> simp only [Bool.false_eq_true, if_false, if_true, BitVec.toNat_add, BitVec.toNat_ofNat] at h ⊢ <;> omega

/-- Counting cycles keeps the sum (R541). -/
theorem Charged.ok {k l : Counters} (h : Charged k l) (hk : countersOk k = true) : countersOk l = true := by
  obtain ⟨n, s, i, c, rfl⟩ := h
  rw [countersOk, Bool.and_eq_true, decide_eq_true_eq, decide_eq_true_eq] at hk ⊢
  simp only [charge]
  omega

/-- So does the retirement. -/
theorem advanceClock_ok {s : State} (h : countersOk s.ctr = true) : countersOk (advanceClock s).ctr = true := by
  rw [countersOk, Bool.and_eq_true, decide_eq_true_eq, decide_eq_true_eq] at h ⊢
  simp only [advanceClock]
  omega

/-! ### Refills, branches and exceptions -/

/-- A refill at an aligned pc establishes the invariant, whatever the slots were. -/
theorem refill_inv {s : State} (h : Sound s) (ha : aligned s.cpsr.t s.pc = true) (hc : countersOk s.ctr = true) :
    (refill s).Inv = true := by
  have hf := refill_frame s
  rw [inv_iff, slotsOk_iff]
  refine ⟨refill_sound h, by rwa [hf.cpsr, hf.pc], ?_, fun _ => ⟨?_, fun ht => ?_⟩⟩
  · rw [refill_ctr]; exact Charged.ok ⟨1, 1, 0, 0, rfl⟩ hc
  · rw [(refill_pipe s).2]; simp only [isz, hf.cpsr, hf.pc]
  · exact refill_half (by rwa [hf.cpsr] at ht)

theorem branchTo_inv {s : State} (h : Sound s) (hc : countersOk s.ctr = true) (v : Word) : (branchTo v s).Inv = true :=
  refill_inv (h.congr rfl rfl) (aligned_alignPc _ _) hc

/-- The entry of any exception is a branch to its vector. -/
theorem enter_branch (inline : Bool) (x : Exc) (s : State) : enter inline x s = branchTo x.vector
    { saveReturn inline x s with cpsr := { (saveReturn inline x s).cpsr with
        m := x.mode, t := false, i := true, f := (saveReturn inline x s).cpsr.f || x == .fiq } } := by
  cases x <;> rfl

theorem enter_inv {s : State} (h : Sound s) (hc : countersOk s.ctr = true) (inline : Bool) (x : Exc) :
    (enter inline x s).Inv = true := by
  rw [enter_branch]
  refine branchTo_inv ?_ ?_ _
  · cases x <;> exact h.congr rfl rfl
  · cases x <;> exact hc

/-! ### The step -/

/-- A state in the middle of an instruction step: the step's own fetch has been made, from pc + 2*isz
(spec/40_fetch_decode_dispatch.md R166). -/
structure Ahead (s : State) : Prop where
  sound : Sound s
  aligned : aligned s.cpsr.t s.pc = true
  ctr : countersOk s.ctr = true
  fetched : s.pipe.lastFetch = { valid := true, addr := readPc s, size := isz s }
  half : s.cpsr.t = true → s.pipe.decoded.word.toNat < 65536 ∧ s.pipe.loaded.word.toNat < 65536

/-- Preparing an instruction in a state with valid slots. -/
theorem prepare_ahead {s : State} (h : s.Inv = true) (hv : s.pipe.valid = true) : Ahead (prepare s) := by
  rw [inv_iff, slotsOk_iff] at h
  obtain ⟨hs, ha, hc, hl⟩ := h
  have hf := prepare_frame s
  have hcpsr : (prepare s).cpsr = s.cpsr := hf.cpsr
  have hpc : (prepare s).pc = s.pc := hf.pc
  refine ⟨prepare_sound hs, by rwa [hcpsr, hpc], ?_, ?_, fun ht => ?_⟩
  · rw [prepare_ctr]; exact (countAccess_charged _ 1 s).ok hc
  · rw [prepare_pipe]; simp only [readPc, isz, hcpsr, hpc]
  · rw [hcpsr] at ht
    rw [prepare_pipe]
    exact ⟨((hl hv).2 ht).2, fetch_half _ ht⟩

section
variable {fl : Bool} {us : List RegNum} {s t u : State}

/-- Work keeps what the step's own fetch has established. -/
theorem Work.ahead (w : Work fl us s u) (h : Ahead s) : Ahead u where
  sound := w.sound h.sound
  aligned := by rw [w.thumb, w.pc]; exact h.aligned
  ctr := w.ctr.ok h.ctr
  fetched := by rw [w.pipe, h.fetched]; simp only [readPc, isz, w.thumb, w.pc]
  half ht := by rw [w.pipe]; exact h.half (by rwa [w.thumb] at ht)

/-- The plain advance brings the pc up to the fetch. -/
theorem forward_inv (h : Ahead s) : (forward s).Inv = true := by
  rw [inv_iff, slotsOk_iff]
  refine ⟨h.sound.congr rfl rfl, aligned_next h.aligned, h.ctr, fun _ => ⟨?_, h.half⟩⟩
  show s.pipe.lastFetch = _
  rw [h.fetched, readPc, ← BitVec.add_assoc]
  rfl

/-- A stop of the debugger inside an instruction leaves no valid slot. -/
theorem caughtInline_inv (h : Ahead s) (x : Exc) : (caughtInline x s).Inv = true := by
  rw [inv_iff, slotsOk_iff]
  exact ⟨h.sound.congr rfl rfl, h.aligned, h.ctr, nofun⟩

/-- However an instruction ends, the invariant holds again. -/
theorem Ends.inv (e : Ends fl us s t) (h : Ahead s) : t.Inv = true := by
  have hb : ∀ {fl u} (w : Work fl us s u) (v : Word) (p : Psr), (branchTo v { u with cpsr := p }).Inv = true :=
    fun {_ u} w v p => branchTo_inv (s := { u with cpsr := p }) ((w.sound h.sound).congr rfl rfl) (w.ctr.ok h.ctr) v
  cases e with
  | next u w e => subst e; exact forward_inv (w.ahead h)
  | branch v u w e => subst e; exact hb w v u.cpsr
  | exchange v b u w e => subst e; exact hb w v _
  | restore v p u w _ _ _ e => subst e; exact hb w v p
  | status _ _ p u w _ _ ht e =>
    subst e
    have ha := w.ahead h
    split
    · refine forward_inv ⟨ha.sound.congr rfl rfl, ?_, ha.ctr, ?_, ?_⟩
      · simpa only [ht] using ha.aligned
      · simpa only [readPc, isz, ht] using ha.fetched
      · simpa only [ht] using ha.half
    · exact hb w _ p
  | entered x u w e => subst e; exact enter_inv (w.sound h.sound) (w.ctr.ok h.ctr) true x
  | caught x u w e => subst e; exact caughtInline_inv (w.ahead h) x

/-- The retirement and the event pass keep the invariant. -/
theorem retire_inv (h : s.Inv = true) : (retire s).Inv = true := by
  have hf : CollabFrame (advanceClock s) (retire s) := eventPass_frame _
  rw [inv_iff, slotsOk_iff] at h ⊢
  obtain ⟨hs, ha, hc, hl⟩ := h
  refine ⟨retire_sound hs, ?_, ?_, ?_⟩
  · rw [hf.cpsr, hf.pc]; exact ha
  · rw [hf.ctr]; exact advanceClock_ok hc
  · simp only [isz, hf.pipe, hf.cpsr, hf.pc]; exact hl

/-- A change of the halt mark is none of the invariant's. -/
theorem halt_inv (h : s.Inv = true) (r : Option HaltReason) : State.Inv { s with dbg := { s.dbg with halt := r } } = true := h

/-- What the decoder answers ends like an instruction; `i` is the instruction, if it is one. -/
theorem execDecoded_ends {d : Decoded} (h : execDecoded d s = .next t) :
    (∃ i, d = .instr i ∧ Ends i.writesFlags i.userList s t) ∨ Ends false [] s t := by
  rcases execDecoded_cases h with ⟨i, hd, hi⟩ | e | ht
  · exact .inl ⟨i, hd, exec_ends hi⟩
  · exact .inr (.next s (.refl s) e)
  · exact .inr (trap_ends ht)

/-- The slots are filled before anything else is done. -/
theorem ensureSlots_inv (h : s.Inv = true) : (ensureSlots s).Inv = true ∧ (ensureSlots s).pipe.valid = true := by
  unfold ensureSlots
  split
  · rename_i hv; exact ⟨h, hv⟩
  · obtain ⟨hs, ha, hc, -⟩ := (inv_iff s).1 h
    exact ⟨refill_inv hs ha hc, (refill_pipe s).1⟩

end

/-- Settles O60: the invariant is split at the step's own fetch, which runs one instruction ahead of the pc (`Ahead`); every
end of an instruction brings the two together again, by the plain advance or by a refill. -/
theorem stepKeepsInvariant : Obligations.stepKeepsInvariant := by
  intro s t hs h
  rcases step_cases h with ⟨r, -, rfl⟩ | ⟨-, hb⟩
  · exact halt_inv hs _
  · obtain ⟨hi, hv⟩ := ensureSlots_inv (halt_inv hs none)
    rcases boundary_cases hb with ⟨x, -, -, rfl⟩ | ⟨x, -, -, rfl⟩ | ⟨-, u, hu, rfl⟩
    · exact halt_inv hs _
    · obtain ⟨hsound, -, hc, -⟩ := (inv_iff _).1 hi
      exact enter_inv hsound hc false x
    · have ha := prepare_ahead hi hv
      rcases execDecoded_ends hu with ⟨i, -, e⟩ | e <;> exact retire_inv (e.inv ha)

/-- Settles O59: by evaluation of the invariant on the reset state. -/
theorem resetInvariant : Obligations.resetInvariant := by
  unfold Obligations.resetInvariant
  rfl

end Sys2Proof.Machine
end

section
/-! The status word bit by bit (spec/10_state.md R35, R38), and the flags through every end of an instruction. -/

namespace Sys2Proof.Machine

/-! ### Mode numbers and the status word -/

theorem modeOfNumber_number (m : Mode) : modeOfNumber m.number = some m := by cases m <;> rfl

/-- A number that names a mode is the mode's number (spec/10_state.md R23). -/
theorem modeOfNumber_some {b : BitVec 5} {m : Mode} (h : modeOfNumber b = some m) : b = m.number := by
  unfold modeOfNumber at h
  split at h <;> cases h <;> exact BitVec.eq_of_toNat_eq ‹_›

/-- The bits of the flags in the status word. -/
theorem word_flags (p : Psr) :
    p.word.getLsbD 31 = p.n ∧ p.word.getLsbD 30 = p.z ∧ p.word.getLsbD 29 = p.c ∧ p.word.getLsbD 28 = p.v := by
  simp only [Psr.word, BitVec.getLsbD_append]
  simp

/-- The status a word gives, field by field. -/
theorem psrOfWord_some {w : Word} {p : Psr} (h : psrOfWord w = some p) :
    w.extractLsb' 0 5 = p.m.number ∧ p.n = w.getLsbD 31 ∧ p.z = w.getLsbD 30 ∧ p.c = w.getLsbD 29 ∧ p.v = w.getLsbD 28 ∧
      p.i = w.getLsbD 7 ∧ p.f = w.getLsbD 6 ∧ p.t = w.getLsbD 5 := by
  unfold psrOfWord at h
  split at h
  · rename_i m hm
    cases h
    exact ⟨modeOfNumber_some hm, rfl, rfl, rfl, rfl, rfl, rfl, rfl⟩
  · cases h

/-! ### Flags -/

/-- Two statuses have the same N, Z, C and V. -/
def SameFlags (p q : Psr) : Prop := p.n = q.n ∧ p.z = q.z ∧ p.c = q.c ∧ p.v = q.v

theorem SameFlags.of_eq {p q : Psr} (h : p = q) : SameFlags p q := by subst h; exact ⟨rfl, rfl, rfl, rfl⟩

/-- A field mask without the f field names no bit of the top byte (spec/42_arm_data_processing.md R251). -/
theorem byteMask_top {mask : BitVec 4} (h : mask.getLsbD 3 = false) {i : Nat} (hi : 24 ≤ i) :
    (byteMask mask).getLsbD i = false := by
  have hb : ∀ m : BitVec 4, m.getLsbD 3 = false → (byteMask m).toNat < 2 ^ 24 := by decide
  exact Nat.testBit_lt_two_pow (Nat.lt_of_lt_of_le (hb mask h) (Nat.pow_le_pow_right (by omega) hi))

/-- An MSR without the f field leaves the flags. -/
theorem msrWord_sameFlags {mask : BitVec 4} {operand : Word} {s : State} {p : Psr} (h : mask.getLsbD 3 = false)
    (hp : psrOfWord (msrWord mask operand s) = some p) : SameFlags p s.cpsr := by
  have hm : ∀ i, 24 ≤ i → (cpsrMask mask s).getLsbD i = false := by
    intro i hi
    unfold cpsrMask
    split <;> simp [byteMask_top h hi]
  have hbit : ∀ i, 24 ≤ i → i < 32 → (msrWord mask operand s).getLsbD i = s.cpsr.word.getLsbD i := by
    intro i hi hi'
    simp only [msrWord, mergeBytes, BitVec.getLsbD_or, BitVec.getLsbD_and, BitVec.getLsbD_not, hm i hi, hi', decide_true,
      Bool.not_false, Bool.and_true, Bool.and_false, Bool.or_false]
  obtain ⟨-, hn, hz, hc, hv, -⟩ := psrOfWord_some hp
  obtain ⟨wn, wz, wc, wv⟩ := word_flags s.cpsr
  exact ⟨by rw [hn, hbit _ (by omega) (by omega), wn], by rw [hz, hbit _ (by omega) (by omega), wz],
    by rw [hc, hbit _ (by omega) (by omega), wc], by rw [hv, hbit _ (by omega) (by omega), wv]⟩

/-- A branch leaves the status. -/
theorem branchTo_cpsr (v : Word) (s : State) : (branchTo v s).cpsr = s.cpsr := (branchTo_frame v s).cpsr

/-- The status an exception is entered with (spec/60_exceptions.md R470). -/
theorem enter_cpsr (inline : Bool) (x : Exc) (s : State) : (enter inline x s).cpsr =
    { s.cpsr with m := x.mode, t := false, i := true, f := s.cpsr.f || x == .fiq } := by
  rw [enter_branch, branchTo_cpsr]
  cases x <;> rfl

/-- An instruction that may not write the flags ends with the flags it started with. -/
theorem Ends.sameFlags {us : List RegNum} {s t : State} (e : Ends false us s t) : SameFlags t.cpsr s.cpsr := by
  cases e with
  | next u w e => subst e; exact .of_eq (w.flags rfl)
  | branch v u w e => subst e; rw [branchTo_cpsr]; exact .of_eq (w.flags rfl)
  | exchange v b u w e => subst e; rw [branchTo_cpsr, w.flags rfl]; exact ⟨rfl, rfl, rfl, rfl⟩
  | restore _ _ _ _ hf => cases hf
  | status mask operand p u w hf hp ht e =>
    have hp := msrWord_sameFlags (hf rfl) hp
    subst e
    split
    · exact hp
    · rwa [branchTo_cpsr]
  | entered x u w e => subst e; rw [enter_cpsr, w.flags rfl]; exact ⟨rfl, rfl, rfl, rfl⟩
  | caught x u w e => subst e; exact .of_eq (w.flags rfl)

/-- Settles O55: the work of such a form writes no flag, and of the ends only an exception return and an MSR with the f field
bring other flags. -/
theorem flagsWrittenOnlyBy : Obligations.flagsWrittenOnlyBy := by
  intro i s t hi h
  have e := exec_ends h
  rw [hi] at e
  exact e.sameFlags

end Sys2Proof.Machine
end

section
/-! What a step keeps from its start to its end, and the registers outside the view of its mode
(spec/10_state.md R26, R27, R40; spec/60_exceptions.md R470). -/

namespace Sys2Proof

/-- A Thumb word is no LDM(2): no row of the 16-bit table writes a register of the User bank. -/
theorem thumbRows_userList : ∀ r ∈ thumbRows, ∀ h, (r.build h).userList = [] := by
  simp [thumbRows, thumbRowsPart0, thumbRowsPart1, thumbRowsPart2, Instr.userList]

/-- Registers of the User bank are written by an LDM(2) alone, which is an ARM word. -/
theorem decodeWord_userList {t : Bool} {w : Word} {i : Instr} (h : decodeWord t w = .instr i) {r : RegNum}
    (hr : r ∈ i.userList) : ∃ f, t = false ∧ decodeArm w = .instr (.ldm2 f) ∧ f.list.getLsbD r.toNat = true := by
  cases t with
  | true =>
    simp only [decodeWord, if_true, decodeThumb] at h
    split at h
    · rename_i row hrow
      cases h
      rw [thumbRows_userList row (List.mem_of_find?_eq_some hrow)] at hr
      cases hr
    · split at h <;> cases h
  | false =>
    unfold Instr.userList at hr
    split at hr
    · rename_i f
      exact ⟨f, rfl, h, (Machine.mem_listRegs (by omega) f.list r).1 hr⟩
    · cases hr

end Sys2Proof

namespace Sys2Proof.Machine

/-! ### What every operation keeps -/

/-- The entry of an exception writes one SPSR, of a mode that has one. -/
theorem saveReturn_kept (inline : Bool) (x : Exc) (s : State) : Kept s (saveReturn inline x s) := by
  have hx : x.mode.hasSpsr = true := by cases x <;> rfl
  have hs : ∀ (v : Word) (b : Fin 7), (∀ m : Mode, m.hasSpsr = true → m.bank ≠ b) →
      (s.spsr.set x.mode.bank v)[b] = s.spsr[b] := fun v b hb => by simp [Fin.val_ne_of_ne (hb _ hx)]
  cases x <;> exact { Kept.refl s with spsr := hs _ }

section
variable {fl : Bool} {us : List RegNum} {s t u : State}

theorem Kept.setCpsr (h : Kept s u) (p : Psr) : Kept s { u with cpsr := p } :=
  ⟨h.inted, h.lastInted, h.spsr, h.catchMask, h.params, h.handlers⟩

theorem Kept.branchTo (h : Kept s u) (v : Word) : Kept s (branchTo v u) :=
  Kept.trans (t := { u with pc := alignPc u.cpsr.t v })
    ⟨h.inted, h.lastInted, h.spsr, h.catchMask, h.params, h.handlers⟩ (branchTo_frame v u).kept

theorem Kept.enter (h : Kept s u) (inline : Bool) (x : Exc) : Kept s (enter inline x u) := by
  rw [enter_branch]
  exact ((h.trans (saveReturn_kept inline x u)).setCpsr _).branchTo _

/-- The modes with an SPSR are those of the slots 1 to 5 (spec/10_state.md R40). -/
theorem bank_of_hasSpsr {m : Mode} (h : m.hasSpsr = true) : m.bank ≠ 0 ∧ m.bank ≠ 6 := by
  cases m
  case user | system => cases h
  all_goals decide

end

/-- The state just after the entry of an exception: the core is in its mode, at its vector. -/
def AtVector (x : Exc) (t : State) : Prop :=
  t.cpsr.m = x.mode ∧ t.cpsr.i = true ∧ t.cpsr.t = false ∧ t.pc = BitVec.ofNat 32 (4 * x.index)

theorem enter_atVector (inline : Bool) (x : Exc) (s : State) : AtVector x (enter inline x s) := by
  refine ⟨by rw [enter_cpsr], by rw [enter_cpsr], by rw [enter_cpsr], ?_⟩
  rw [enter_branch, (branchTo_frame _ _).pc]
  cases x <;> rfl

/-- The entry of an exception writes r14 of its mode and no other register. -/
theorem enter_regs (inline : Bool) (x : Exc) (s : State) {p : PhysReg} (h : p ≠ .lr x.mode.bank) :
    readPhys (enter inline x s).regs p = readPhys s.regs p := by
  rw [enter_branch, (branchTo_frame _ _).regs]
  cases x <;> exact readPhys_writePhys_other _ _ h

section
variable {fl : Bool} {us : List RegNum} {s t u : State}

theorem Ends.kept (e : Ends fl us s t) : Kept s t := by
  have hf : ∀ {u}, Kept s u → Kept s (forward u) := fun h =>
    ⟨h.inted, h.lastInted, h.spsr, h.catchMask, h.params, h.handlers⟩
  cases e with
  | next u w e => subst e; exact hf w.toKept
  | branch v u w e => subst e; exact w.toKept.branchTo v
  | exchange v b u w e => subst e; exact (w.toKept.setCpsr _).branchTo v
  | restore v p u w _ _ _ e => subst e; exact (w.toKept.setCpsr p).branchTo v
  | status _ _ p u w _ _ _ e =>
    subst e
    split
    · exact hf (w.toKept.setCpsr p)
    · exact (w.toKept.setCpsr p).branchTo _
  | entered x u w e => subst e; exact w.toKept.enter true x
  | caught x u w e => subst e; exact w.toKept.trans (.of_eq rfl rfl rfl rfl rfl rfl rfl)

/-- A register that changed while it was in no view the instruction writes is r14 of an exception that was entered. -/
theorem Ends.regs (e : Ends fl us s t) {p : PhysReg} (hv : ∀ r, physOf s.cpsr.m.bank r ≠ some p)
    (hu : ∀ r ∈ us, physOf Mode.user.bank r ≠ some p) (hp : readPhys t.regs p ≠ readPhys s.regs p) :
    ∃ x : Exc, p = .lr x.mode.bank ∧ AtVector x t := by
  have hw : ∀ {fl u}, Work fl us s u → t.regs = u.regs → False := fun w h => hp (by rw [h, w.regs p hv hu])
  cases e with
  | next u w e => exact (hw w (by rw [e]; rfl)).elim
  | branch v u w e => exact (hw w (by rw [e, (branchTo_frame _ _).regs])).elim
  | exchange v b u w e => exact (hw w (by rw [e, (branchTo_frame _ _).regs])).elim
  | restore v p u w _ _ _ e => exact (hw w (by rw [e, (branchTo_frame _ _).regs])).elim
  | status _ _ p u w _ _ _ e =>
    refine (hw w ?_).elim
    rw [e]
    split
    · rfl
    · exact (branchTo_frame _ _).regs
  | entered x u w e =>
    subst e
    refine ⟨x, ?_, enter_atVector true x u⟩
    by_contra hne
    exact hp ((enter_regs true x u hne).trans (w.regs p hv hu))
  | caught x u w e => exact (hw w (by rw [e]; rfl)).elim

end

/-! ### The step around the instruction -/

/-- What is done around an instruction or an exception, beside what no step touches, moves no register, and neither the
pc nor the status. -/
structure Around (s t : State) : Prop extends Kept s t where
  regs : t.regs = s.regs
  pc : t.pc = s.pc
  cpsr : t.cpsr = s.cpsr

theorem Around.trans {s t u : State} (h : Around s t) (k : Around t u) : Around s u :=
  { h.toKept.trans k.toKept with regs := k.regs.trans h.regs, pc := k.pc.trans h.pc, cpsr := k.cpsr.trans h.cpsr }

theorem FetchFrame.around {s t : State} (h : FetchFrame s t) : Around s t :=
  { h.kept with regs := h.regs, pc := h.pc, cpsr := h.cpsr }

/-- Marking or clearing a halt. -/
theorem halt_around (s : State) (r : Option HaltReason) : Around s { s with dbg := { s.dbg with halt := r } } :=
  { Kept.of_eq rfl rfl rfl rfl rfl rfl rfl with regs := rfl, pc := rfl, cpsr := rfl }

theorem ensureSlots_around (s : State) : Around s (ensureSlots (clearHalt s)) := by
  refine (halt_around s none).trans ?_
  unfold ensureSlots
  split
  · exact (FetchFrame.refl _).around
  · exact (refill_frame _).around

/-- The word a step executes: the slot's, or the one the refill fetches. -/
theorem ensureSlots_decoded (s : State) :
    (ensureSlots (clearHalt s)).pipe.decoded = (if s.pipe.valid then s else refill (clearHalt s)).pipe.decoded := by
  unfold ensureSlots
  rw [show (clearHalt s).pipe = s.pipe from rfl]
  split <;> rfl

theorem prepare_around (s : State) : Around s (prepare s) :=
  Around.trans (t := beforeFetch s)
    { Kept.of_eq rfl rfl rfl rfl rfl rfl rfl with regs := rfl, pc := rfl, cpsr := rfl } (prepare_frame s).around

theorem retire_around (s : State) : Around s (retire s) :=
  Around.trans (t := advanceClock s)
    { Kept.of_eq rfl rfl rfl rfl rfl rfl rfl with regs := rfl, pc := rfl, cpsr := rfl }
    (eventPass_frame (advanceClock s)).access.fetch.around

/-- A step left the registers alone, or entered an exception, or ran what its word decodes to. -/
theorem step_around {s t : State} (h : step s = .next t) :
    Around s t ∨ (∃ x s1, Around s s1 ∧ t = enter false x s1) ∨
    ∃ s1 u, Around s s1 ∧ Around u t ∧
      execDecoded (decodeWord s.cpsr.t (if s.pipe.valid then s else refill (clearHalt s)).pipe.decoded.word) s1 = .next u := by
  rcases step_cases h with ⟨r, -, rfl⟩ | ⟨-, hb⟩
  · exact .inl (halt_around s _)
  · have ha := ensureSlots_around s
    rcases boundary_cases hb with ⟨x, -, -, rfl⟩ | ⟨x, -, -, rfl⟩ | ⟨-, u, hu, rfl⟩
    · exact .inl (halt_around s _)
    · exact .inr (.inl ⟨x, _, ha, rfl⟩)
    · rw [ensureSlots_decoded, ha.cpsr] at hu
      exact .inr (.inr ⟨_, u, ha.trans (prepare_around _), retire_around u, hu⟩)

/-- No step touches the collaborators' storage, the slots of no SPSR, the catch mask or the parameters. -/
theorem step_kept {s t : State} (h : step s = .next t) : Kept s t := by
  rcases step_around h with ha | ⟨x, s1, ha, rfl⟩ | ⟨s1, u, ha, hz, hu⟩
  · exact ha.toKept
  · exact ha.toKept.enter false x
  · have hk : Kept s1 u := by rcases execDecoded_ends hu with ⟨i, -, e⟩ | e <;> exact e.kept
    exact (ha.toKept.trans hk).trans hz.toKept

/-- A register outside the view that a step changed: r14 of an exception, or listed in an LDM(2). -/
theorem step_regs {s t : State} (h : step s = .next t) {p : PhysReg} (hv : ∀ r, physOf s.cpsr.m.bank r ≠ some p)
    (hp : readPhys t.regs p ≠ readPhys s.regs p) :
    (∃ x : Exc, p = .lr x.mode.bank ∧ AtVector x t) ∨
    ∃ i r, decodeWord s.cpsr.t (if s.pipe.valid then s else refill (clearHalt s)).pipe.decoded.word = .instr i ∧
      r ∈ i.userList ∧ physOf Mode.user.bank r = some p := by
  rcases step_around h with ha | ⟨x, s1, ha, rfl⟩ | ⟨s1, u, ha, hz, hu⟩
  · exact (hp (by rw [ha.regs])).elim
  · refine .inl ⟨x, ?_, enter_atVector false x s1⟩
    by_contra hne
    exact hp (by rw [enter_regs false x s1 hne, ha.regs])
  · rw [hz.regs, ← ha.regs] at hp
    rw [← ha.cpsr] at hv
    have hat : ∀ x, AtVector x u → AtVector x t := fun x hx => by unfold AtVector; rw [hz.cpsr, hz.pc]; exact hx
    rcases execDecoded_ends hu with ⟨i, hi, e⟩ | e
    · by_cases hl : ∃ r ∈ i.userList, physOf Mode.user.bank r = some p
      · obtain ⟨r, hr, hrp⟩ := hl
        exact .inr ⟨i, r, hi, hr, hrp⟩
      · obtain ⟨x, hx, hx'⟩ := e.regs hv (fun r hr hrp => hl ⟨r, hr, hrp⟩) hp
        exact .inl ⟨x, hx, hat x hx'⟩
    · obtain ⟨x, hx, hx'⟩ := e.regs hv nofun hp
      exact .inl ⟨x, hx, hat x hx'⟩

/-- Settles O57: `Kept` holds along every part of a step, and a register outside the view is written by the entry of an
exception or by an LDM(2) alone. -/
theorem untouchedByEveryStep : Obligations.untouchedByEveryStep := by
  intro s t h
  have k := step_kept h
  refine ⟨k.inted, k.lastInted, k.spsr 0 fun _ hm => (bank_of_hasSpsr hm).1,
    k.spsr 6 fun _ hm => (bank_of_hasSpsr hm).2, k.catchMask, k.params,
    fun hu => (k.handlers hu).2, fun p hv hp => ?_⟩
  rcases step_regs h hv hp with hx | ⟨i, r, hi, hr, hrp⟩
  · exact .inl hx
  · obtain ⟨f, ht, hd, hl⟩ := decodeWord_userList hi hr
    exact .inr ⟨f, r, hd, ht, hl, hrp⟩

end Sys2Proof.Machine
end

section
/-! The pc write and the accessors of the session (spec/10_state.md R23 to R31, R38, R41). -/

namespace Sys2Proof.Machine

/-- Settles O19: a branch is a refill at the aligned pc, and the refill is quiet. -/
theorem branchWrite : Obligations.branchWrite := by
  intro v s sz n a hq
  obtain ⟨h1, h2⟩ := hq
  exact refill_quiet (s := { s with pc := a }) h1 h2

/-! ### The views of the banks (spec/10_state.md R24) -/

/-- The number a physical register has in every view it is in. -/
def PhysReg.number : PhysReg → Nat
  | .lo i => i
  | .nf i => 8 + i
  | .fiq i => 8 + i
  | .sp _ => 13
  | .lr _ => 14

theorem physOf_number {b : Fin 7} {n : RegNum} {p : PhysReg} (h : physOf b n = some p) : p.number = n.toNat := by
  unfold physOf at h
  split at h
  · cases h; rfl
  · split at h
    · cases h
      split <;> (simp only [PhysReg.number]; omega)
    · split at h
      · rename_i hn; cases h; exact hn.symm
      · split at h
        · rename_i hn; cases h; exact hn.symm
        · cases h

theorem bank_eq_iff (m o : Mode) : m.bank = o.bank ↔ m = o := by cases m <;> cases o <;> decide

theorem bank_fiq_iff (m : Mode) : m.bank = 1 ↔ m = .fiq := by cases m <;> decide

/-- Two modes see the same register under a number when it is below 8, when the modes are the same, or when it is below 13
and neither mode is FIQ. -/
theorem physOf_shared_iff (m o : Mode) {n : RegNum} (hn : n ≠ 15#4) : physOf o.bank n = physOf m.bank n ↔
    n.toNat < 8 ∨ m = o ∨ (n.toNat < 13 ∧ m ≠ .fiq ∧ o ≠ .fiq) := by
  have h15 : n.toNat ≠ 15 := fun e => hn (BitVec.eq_of_toNat_eq e)
  have h16 := n.isLt
  by_cases h8 : n.toNat < 8
  · simp [physOf, h8]
  by_cases h13 : n.toNat < 13
  · simp only [physOf, h8, h13, bank_fiq_iff, dif_neg, dif_pos, not_false_eq_true]
    by_cases hm : m = .fiq <;> by_cases ho : o = .fiq <;> simp [hm, ho, eq_comm]
  by_cases hs : n.toNat = 13
  · simp [physOf, hs, bank_eq_iff, eq_comm]
  · have hl : n.toNat = 14 := by omega
    simp [physOf, hl, bank_eq_iff, eq_comm]

/-- What another mode's view shows of a write of a general register. -/
theorem readBank_writeBank (s : State) (m o : Mode) {n k : RegNum} (hn : n ≠ 15#4) (hk : k ≠ 15#4) (v : Word) :
    readBank (writeBank s m.bank n v) o.bank k =
      if k = n ∧ (n.toNat < 8 ∨ m = o ∨ (n.toNat < 13 ∧ m ≠ .fiq ∧ o ≠ .fiq)) then v else readBank s o.bank k := by
  obtain ⟨p, hp⟩ := Option.isSome_iff_exists.1 (physOf_isSome m.bank hn)
  obtain ⟨q, hq⟩ := Option.isSome_iff_exists.1 (physOf_isSome o.bank hk)
  have hsame : q = p ↔ k = n ∧ (n.toNat < 8 ∨ m = o ∨ (n.toNat < 13 ∧ m ≠ .fiq ∧ o ≠ .fiq)) := by
    rw [← physOf_shared_iff m o hn, hp]
    constructor
    · rintro rfl
      have hkn : k = n := BitVec.eq_of_toNat_eq ((physOf_number hq).symm.trans (physOf_number hp))
      exact ⟨hkn, by rw [← hkn, hq]⟩
    · rintro ⟨rfl, h⟩
      exact Option.some.inj (hq.symm.trans h)
  simp only [readBank, writeBank, hp, hq, ← hsame]
  split
  · rename_i h; rw [h, readPhys_writePhys_same]
  · rename_i h; exact readPhys_writePhys_other _ _ h

/-- Where the write of a general register does not go. -/
theorem readPhys_writeBank_other (s : State) (b : Fin 7) {n : RegNum} (v : Word) {p : PhysReg} (h : physOf b n ≠ some p) :
    readPhys (writeBank s b n v).regs p = readPhys s.regs p := by
  rw [writeBank_regs]
  split
  · rename_i q hq; exact readPhys_writePhys_other _ _ (by rintro rfl; exact h hq)
  · rfl

/-- A write of a general register changes the registers alone. -/
theorem writeBank_eq (s : State) (b : Fin 7) (n : RegNum) (v : Word) :
    writeBank s b n v = { s with regs := (writeBank s b n v).regs } := by
  unfold writeBank; split <;> rfl

/-! ### The accessors by mode (spec/10_state.md R25, R38, R41) -/

theorem modeOfNumber_none {b : BitVec 5} (h : ∀ mode : Mode, b ≠ mode.number) : modeOfNumber b = none :=
  Option.eq_none_iff_forall_ne_some.2 fun m hm => h m (modeOfNumber_some hm)

theorem getReg_mode (m : Mode) {n : RegNum} (h : n ≠ 15#4) (s : State) :
    getReg m.number n s = some (readBank s m.bank n) := by
  simp only [getReg, modeOfNumber_number, regOf, if_neg h]

theorem getReg_pc (m : Mode) (s : State) : getReg m.number 15#4 s = some (getPc s) := by
  simp only [getReg, modeOfNumber_number, regOf, if_true]

theorem setReg_mode (m : Mode) {n : RegNum} (h : n ≠ 15#4) (v : Word) (s : State) :
    setReg m.number n v s = some (writeBank s m.bank n v) := by
  simp only [setReg, modeOfNumber_number, if_neg h]

theorem setReg_pc (m : Mode) (v : Word) (s : State) :
    setReg m.number 15#4 v s = some (flush { s with pc := alignPc s.cpsr.t v }) := by
  simp only [setReg, modeOfNumber_number, if_true]

theorem getSpsr_mode (m : Mode) (s : State) : getSpsr m.number s = if m.hasSpsr then some s.spsr[m.bank] else none := by
  simp only [getSpsr, modeOfNumber_number, spsrOf]

theorem setSpsr_mode (m : Mode) (v : Word) (s : State) :
    setSpsr m.number v s = if m.hasSpsr then some { s with spsr := s.spsr.set m.bank v } else none := by
  simp only [setSpsr, modeOfNumber_number, setSpsrOf]

/-- r15 while the slots are invalid reads as the pc, whatever the parameter says (R28). -/
theorem getPc_invalid {s : State} (h : s.pipe.valid = false) : getPc s = s.pc := by
  unfold getPc
  split <;> simp [h]

/-- The status word of the status a word gives: bits 27:8 have no storage (R39). -/
theorem word_psrOfWord {w : Word} {p : Psr} (h : psrOfWord w = some p) : p.word = w &&& 0xF00000FF#32 := by
  obtain ⟨hm, hn, hz, hc, hv, hi, hf, ht⟩ := psrOfWord_some h
  rw [Psr.word, ← hm, hn, hz, hc, hv, hi, hf, ht]
  ext i hi
  simp only [BitVec.getElem_append, BitVec.getElem_and]
  interval_cases i <;> simp

/-- A CPSR write from outside changes the status, and at most refills. -/
theorem setCpsr_some {v : Word} {s : State} {p : Psr} (h : psrOfWord v = some p) :
    ∃ t, setCpsr v s = some t ∧ t.cpsr = p ∧ t.regs = s.regs ∧ t.spsr = s.spsr := by
  simp only [setCpsr, h]
  split
  · have hb := branchTo_frame s.pc { s with cpsr := p }
    exact ⟨_, rfl, hb.cpsr, hb.regs, hb.spsr⟩
  · exact ⟨_, rfl, rfl, rfl, rfl⟩

/-- A word whose mode number is one of R23's gives a status of that mode. -/
theorem psrOfWord_mode {v : Word} {m : Mode} (h : v.extractLsb' 0 5 = m.number) : ∃ p, psrOfWord v = some p ∧ p.m = m := by
  simp only [psrOfWord, h, modeOfNumber_number]
  exact ⟨_, rfl, rfl⟩

/-- A write of a general register through the session, seen from every mode. -/
theorem setReg_getReg (m : Mode) {n : RegNum} (hn : n ≠ 15#4) (v : Word) (s : State) :
    ∃ t, setReg m.number n v s = some t ∧ getReg m.number n t = some v ∧ t = { s with regs := t.regs } ∧
      (∀ p, physOf m.bank n ≠ some p → readPhys t.regs p = readPhys s.regs p) ∧
      ∀ (o : Mode) (k : RegNum), k ≠ 15#4 → getReg o.number k t =
        if k = n ∧ (n.toNat < 8 ∨ m = o ∨ (n.toNat < 13 ∧ m ≠ .fiq ∧ o ≠ .fiq)) then some v
        else getReg o.number k s := by
  refine ⟨_, setReg_mode m hn v s, ?_, writeBank_eq .., fun p hp => readPhys_writeBank_other _ _ _ hp, fun o k hk => ?_⟩
  · rw [getReg_mode m hn, readBank_writeBank_same _ _ hn]
  · rw [getReg_mode o hk, getReg_mode o hk, readBank_writeBank s m o hn hk]
    split <;> rfl

/-- A write of r15 through the session. -/
theorem setReg_getReg_pc (m : Mode) (v : Word) (s : State) : ∃ t, setReg m.number 15#4 v s = some t ∧
    t.pc = alignPc s.cpsr.t v ∧ t.pipe.valid = false ∧ t.pipe.lastFetch.valid = false ∧
    t = { s with pc := t.pc, pipe := t.pipe } ∧ getReg m.number 15#4 t = some t.pc :=
  ⟨_, setReg_pc m v s, rfl, rfl, rfl, rfl, by rw [getReg_pc, getPc_invalid rfl]⟩

/-- r15 by the two readings of log 11. -/
theorem getReg_pc_readings (m : Mode) (s : State) :
    (s.params.getRegPc = .ahead → s.pipe.valid = true →
      getReg m.number 15#4 s = some (s.pc + if s.cpsr.t then 4#32 else 8#32)) ∧
    (s.params.getRegPc = .execute → getReg m.number 15#4 s = some s.pc) := by
  constructor
  · intro hp hv
    simp only [getReg_pc, getPc, hp, hv, if_true, readPc, isz]
    cases s.cpsr.t <;> rfl
  · intro hp
    simp only [getReg_pc, getPc, hp]

/-- No accessor takes an invalid mode number. -/
theorem accessors_invalid {m : BitVec 5} (h : ∀ mode : Mode, m ≠ mode.number) (n : RegNum) (v : Word) (s : State) :
    getReg m n s = none ∧ setReg m n v s = none ∧ getSpsr m s = none ∧ setSpsr m v s = none := by
  simp only [getReg, setReg, getSpsr, setSpsr, modeOfNumber_none h, and_self]

/-- An SPSR round-trips. -/
theorem setSpsr_getSpsr {m : Mode} (h : m.hasSpsr = true) (v : Word) (s : State) :
    ∃ t, setSpsr m.number v s = some t ∧ getSpsr m.number t = some v ∧ t = { s with spsr := t.spsr } ∧
      ∀ b : Fin 7, b ≠ m.bank → t.spsr[b] = s.spsr[b] := by
  refine ⟨{ s with spsr := s.spsr.set m.bank v }, by rw [setSpsr_mode, if_pos h], ?_, rfl, fun b hb => ?_⟩
  · rw [getSpsr_mode, if_pos h]; simp
  · simp [Fin.val_ne_of_ne hb.symm]

/-- A CPSR write from outside, and what the new mode sees. -/
theorem setCpsr_mode {m : Mode} {v : Word} (h : v.extractLsb' 0 5 = m.number) (s : State) :
    ∃ t, setCpsr v s = some t ∧ t.cpsr.m = m ∧ t.cpsr.word = v &&& 0xF00000FF#32 ∧ t.regs = s.regs ∧ t.spsr = s.spsr ∧
      readReg t 13#4 = s.regs.sp[m.bank] ∧ readReg t 14#4 = s.regs.lr[m.bank] := by
  obtain ⟨p, hp, rfl⟩ := psrOfWord_mode h
  obtain ⟨t, ht, rfl, hr, hs⟩ := setCpsr_some (s := s) hp
  exact ⟨t, ht, rfl, word_psrOfWord hp, hr, hs, by rw [← hr]; rfl, by rw [← hr]; rfl⟩

/-- Settles O41, clause by clause. -/
theorem sessionAccess : Obligations.sessionAccess := by
  refine ⟨⟨rfl, rfl, rfl, rfl, rfl, rfl, rfl⟩, fun m n v s hn => setReg_getReg m hn v s, setReg_getReg_pc,
    getReg_pc_readings, fun m n v s h => accessors_invalid h n v s, fun m v s hu hy => setSpsr_getSpsr ?_ v s,
    fun v s => ⟨getSpsr_mode .user s, getSpsr_mode .system s, setSpsr_mode .user v s, setSpsr_mode .system v s⟩,
    fun m v s h => setCpsr_mode h s, fun v s h => ?_⟩
  · cases m
    case user => exact absurd rfl hu
    case system => exact absurd rfl hy
    all_goals rfl
  · simp only [setCpsr, psrOfWord, modeOfNumber_none h]

end Sys2Proof.Machine
end

section
/-! The memory port (spec/20_memory.md R71, R72, R83, R84) and the values it loads (R73, R74, R76). -/

namespace Sys2Proof.Machine

/-! ### What an access and a charge leave -/

/-- A collaborator at the port does not touch `ResetReq` (spec/20_memory.md R72). -/
theorem perform_resetReq (s : State) (a : Action) : (perform s a).lines.resetReq = s.lines.resetReq := by cases a <;> rfl

theorem performMem_resetReq (k : AbortKind) (s : State) (a : MemAction) :
    (performMem k s a).lines.resetReq = s.lines.resetReq := by
  cases a with
  | act a => exact perform_resetReq s a
  | write => rfl
  | abort a => simp only [performMem, abortCall_lines]

theorem performIdle_resetReq (s : State) (a : IdleAction) : (performIdle s a).lines.resetReq = s.lines.resetReq := by
  cases a with
  | act a => exact perform_resetReq s a
  | write => rfl

theorem access_resetReq (c : Cls) (k : Access) (sz : Size) (a : Word) (v : Option Word) (s : State) :
    (access c k sz a v s).2.lines.resetReq = s.lines.resetReq := by
  have hf : ∀ (l : List MemAction) (s : State), (l.foldl (performMem k.abortKind) s).lines.resetReq = s.lines.resetReq :=
    foldl_keeps (fun s => s.lines.resetReq) _ (performMem_resetReq k.abortKind)
  simp only [access, hf, landStore_lines, touch]
  split
  · rw [abortCall_lines, hf]; simp
  · rw [hf]; simp

theorem icycles_resetReq (k : Nat) (s : State) : (icycles k s).lines.resetReq = s.lines.resetReq := by
  unfold icycles
  split
  · rfl
  · exact foldl_keeps (fun s => s.lines.resetReq) _ performIdle_resetReq _ _

theorem ccycles_resetReq (k : Nat) (s : State) : (ccycles k s).lines.resetReq = s.lines.resetReq := by
  unfold ccycles
  split
  · rfl
  · exact foldl_keeps (fun s => s.lines.resetReq) _ performIdle_resetReq _ _

/-- `Internal` is called once when there are internal cycles, and then uses up one entry of its script (R84). -/
theorem icycles_collab (k : Nat) (s : State) : (icycles k s).collab =
    { s.collab with internal := if k = 0 then s.collab.internal else s.collab.internal.tail } := by
  unfold icycles
  split
  · rfl
  · exact foldl_keeps State.collab performIdle performIdle_collab _ _

/-- The same of `CoprocCycle`. -/
theorem ccycles_collab (k : Nat) (s : State) : (ccycles k s).collab =
    { s.collab with coprocCycle := if k = 0 then s.collab.coprocCycle else s.collab.coprocCycle.tail } := by
  unfold ccycles
  split
  · rfl
  · exact foldl_keeps State.collab performIdle performIdle_collab _ _

/-- Settles O8: every action of the interface at the port keeps the core (`CollabFrame`), a charge adds its row to the
counters and calls each operation once, and over empty scripts it is the charge alone. -/
theorem portContract : Obligations.portContract := by
  unfold Obligations.portContract
  intro core
  refine ⟨fun c k sz a v s => ?_, fun row s => ⟨?_, ?_, charges_fault row s, ?_, ?_⟩⟩
  · have h := access_frame c k sz a v s
    exact ⟨by simp only [core, h.pc, h.regs, h.cpsr, h.spsr, h.acc, h.inted, h.lastInted, h.pipe, h.coproc, h.params,
      h.reseted, access_resetReq, h.catchMask, h.stepBudget], h.ctr⟩
  · have h := charges_frame row s
    have hr : (charges row s).lines.resetReq = s.lines.resetReq := by
      rw [charges, ccycles_resetReq, icycles_resetReq]
    simp only [core, h.pc, h.regs, h.cpsr, h.spsr, h.acc, h.inted, h.lastInted, h.pipe, h.coproc, h.params, h.reseted, hr,
      h.catchMask, h.stepBudget]
  · simp [charge, Nat.add_assoc]
  · rw [charges, ccycles_collab, icycles_collab]
  · rintro (rfl | ⟨hi, hc⟩)
    · rfl
    · exact charges_quiet row hi hc

/-! ### The bits of a loaded value -/

/-- The bits of a word read at the port: those of its four bytes, the lowest address first (R73, R74). -/
theorem portLoad_word_getLsbD (m : Memory) (a : Word) {i : Nat} (h : i < 32) :
    (portLoad m .word a).getLsbD i = (memGet m (4 * (a.toNat / 4) + i / 8)).getLsbD (i % 8) := by
  have h1 := accessBase_word_add a (k := 1) (by omega)
  have h2 := accessBase_word_add a (k := 2) (by omega)
  have h3 := accessBase_word_add a (k := 3) (by omega)
  simp only [portLoad, h1, h2, h3, accessBase_word_toNat, BitVec.getLsbD_append]
  have hq : i / 8 = 0 ∨ i / 8 = 1 ∨ i / 8 = 2 ∨ i / 8 = 3 := by omega
  rcases hq with hq | hq | hq | hq
  · rw [hq, if_pos (by omega), show i % 8 = i by omega]; rfl
  · rw [hq, if_neg (by omega), if_pos (by omega), show i % 8 = i - 8 by omega]
  · rw [hq, if_neg (by omega), if_neg (by omega), if_pos (by omega), show i % 8 = i - 8 - 8 by omega]
  · rw [hq, if_neg (by omega), if_neg (by omega), if_neg (by omega), show i % 8 = i - 8 - 8 - 8 by omega]

/-- The bits of a halfword read at an even address: those of its two bytes (R73, R75). -/
theorem portLoad_half_getLsbD (m : Memory) {a : Word} (ha : a.getLsbD 0 = false) {i : Nat} (h : i < 16) :
    (portLoad m .half a).getLsbD i = (memGet m (a.toNat + i / 8)).getLsbD (i % 8) := by
  have h1 : (a + 1#32).toNat = a.toNat + 1 := by
    have := a.isLt
    have : a.toNat % 2 = 0 := by simpa [BitVec.getLsbD, Nat.testBit_zero] using ha
    rw [BitVec.toNat_add, BitVec.toNat_ofNat]
    omega
  simp only [portLoad, accessBase, h1, BitVec.getLsbD_setWidth, BitVec.getLsbD_append]
  have hq : i / 8 = 0 ∨ i / 8 = 1 := by omega
  rcases hq with hq | hq
  · rw [hq, if_pos (by omega), show i % 8 = i by omega, decide_eq_true (by omega), Bool.true_and]; rfl
  · rw [hq, if_neg (by omega), show i % 8 = i - 8 by omega, decide_eq_true (by omega), Bool.true_and]

/-- A value extended with its sign bit, bit by bit. -/
theorem getLsbD_signExtend_setWidth (w : Word) {n k : Nat} (hn : 0 < n) (hk : k < 32) :
    ((w.setWidth n).signExtend 32).getLsbD k = w.getLsbD (min k (n - 1)) := by
  rw [BitVec.getLsbD_signExtend, BitVec.msb_eq_getLsbD_last, BitVec.getLsbD_setWidth, BitVec.getLsbD_setWidth]
  by_cases h : k < n
  · simp [h, hk, show min k (n - 1) = k by omega]
  · simp [h, hk, show min k (n - 1) = n - 1 by omega, hn]

/-- A rotation to the right, bit by bit. -/
theorem getLsbD_rotateRight_mod (w : Word) (r : Nat) {i : Nat} (hi : i < 32) :
    (w.rotateRight r).getLsbD i = w.getLsbD ((i + r) % 32) := by
  rw [BitVec.getLsbD_rotateRight]
  by_cases h : i < 32 - r % 32
  · rw [decide_eq_true h, cond_true]; congr 1; omega
  · rw [decide_eq_false h, cond_false, decide_eq_true hi, Bool.true_and]; congr 1; omega

/-- The bytes of a loaded word, the one addressed first (R74). -/
theorem rotateLoaded_byte (m : Memory) (a : Word) {k : Nat} (hk : k < 4) :
    (rotateLoaded a (portLoad m .word a)).extractLsb' (8 * k) 8 = memGet m (4 * (a.toNat / 4) + (a.toNat + k) % 4) := by
  ext j hj
  rw [BitVec.getElem_extractLsb', rotateLoaded, getLsbD_rotateRight_mod _ _ (by omega),
    portLoad_word_getLsbD m a (by omega), ← BitVec.getLsbD_eq_getElem]
  congr 2 <;> omega

/-- Settles O20: each load picks, rotates or extends the bits that the port reads. -/
theorem loadedValues : Obligations.loadedValues := by
  unfold Obligations.loadedValues
  intro m a
  refine ⟨fun k hk => rotateLoaded_byte m a hk, fun k hk => ?_, fun k hk => ?_, fun ha k hk => ⟨?_, ?_⟩⟩
  · show ((memGet m a.toNat).setWidth 32).getLsbD k = _
    rw [BitVec.getLsbD_setWidth, decide_eq_true hk, Bool.true_and]
    by_cases h : k < 8
    · rw [decide_eq_true h, Bool.true_and]
    · rw [decide_eq_false h, Bool.false_and, BitVec.getLsbD_of_ge _ _ (by omega)]
  · have h : min k 7 < 32 := by omega
    rw [LoadOp.value, getLsbD_signExtend_setWidth _ (by omega) hk]
    simp [portLoad, accessBase, h]
  · show (portLoad m .half a).getLsbD k = _
    by_cases h : k < 16
    · rw [portLoad_half_getLsbD m ha h, decide_eq_true h, Bool.true_and]
    · rw [decide_eq_false h, Bool.false_and, portLoad, BitVec.getLsbD_setWidth, BitVec.getLsbD_of_ge _ _ (by omega),
        Bool.and_false]
  · rw [LoadOp.value, getLsbD_signExtend_setWidth _ (by omega) hk, portLoad_half_getLsbD m ha (by omega)]

end Sys2Proof.Machine
end

section
/-! The single transfers and swaps, said once for all of them: the access they make, and how an abort of it ends
(spec/20_memory.md R80 to R82; spec/45_arm_load_store.md R283; spec/49_thumb_memory_branch.md R400). -/

namespace Sys2Proof.Machine

/-! ### The one access of an instruction -/

/-- The kind of access a transfer makes. -/
def Transfer.kind : Transfer → Access
  | .load _ => .read
  | .store _ => .write

/-- The width of the access a transfer makes. -/
def Transfer.size : Transfer → Size
  | .load op => op.size
  | .store sz => sz

/-- What an instruction that is ready does with its one access, of the given kind, width and address: a transfer of one
register, or a swap, which is of a word or a byte. -/
inductive Transfers (s : State) : Access → Size → Word → Out → Prop
  | one (x : Transfer) (rd : RegNum) (a : Word) (wb : Option (RegNum × Word)) :
    Transfers s x.kind x.size a (transfer x rd a wb s)
  | swap (op : LoadOp) (f : Swp) (hc : conditionPassed f.cond s.cpsr = true) (hf : f.check = none) (hn : op.size ≠ .half) :
    Transfers s .swap op.size (readReg s f.rn) (swap op f s)

section
variable {x : Transfer} {b : Bool} {k : Access} {sz : Size} {a : Word} {s : State}

theorem transferImmPre_transfers {f : LsImmPre} (hc : conditionPassed f.cond s.cpsr = true) (hf : f.check b = none)
    (hk : x.kind = k) (hs : x.size = sz) (ha : (addrImmPre f s).addr = a) :
    Transfers s k sz a (transferImmPre x b f s) := by
  subst hk hs ha; rw [transferImmPre, guarded_pass hc hf]; exact .one ..

theorem transferImmPost_transfers {f : LsImmPost} (hc : conditionPassed f.cond s.cpsr = true) (hf : f.check b = none)
    (hk : x.kind = k) (hs : x.size = sz) (ha : (addrImmPost f s).addr = a) :
    Transfers s k sz a (transferImmPost x b f s) := by
  subst hk hs ha; rw [transferImmPost, guarded_pass hc hf]; exact .one ..

theorem transferRegPre_transfers {f : LsRegPre} (hc : conditionPassed f.cond s.cpsr = true) (hf : f.check b = none)
    (hk : x.kind = k) (hs : x.size = sz) (ha : (addrRegPre f s).addr = a) :
    Transfers s k sz a (transferRegPre x b f s) := by
  subst hk hs ha; rw [transferRegPre, guarded_pass hc hf]; exact .one ..

theorem transferRegPost_transfers {f : LsRegPost} (hc : conditionPassed f.cond s.cpsr = true) (hf : f.check b = none)
    (hk : x.kind = k) (hs : x.size = sz) (ha : (addrRegPost f s).addr = a) :
    Transfers s k sz a (transferRegPost x b f s) := by
  subst hk hs ha; rw [transferRegPost, guarded_pass hc hf]; exact .one ..

theorem transferHwReg_transfers {f : HwReg} (hc : conditionPassed f.cond s.cpsr = true) (hf : f.check = none)
    (hk : x.kind = k) (hs : x.size = sz) (ha : (addrHwReg f s).addr = a) :
    Transfers s k sz a (transferHwReg x f s) := by
  subst hk hs ha; rw [transferHwReg, guarded_pass hc hf]; exact .one ..

theorem transferHwImm_transfers {f : HwImm} (hc : conditionPassed f.cond s.cpsr = true) (hf : f.check = none)
    (hk : x.kind = k) (hs : x.size = sz) (ha : (addrHwImm f s).addr = a) :
    Transfers s k sz a (transferHwImm x f s) := by
  subst hk hs ha; rw [transferHwImm, guarded_pass hc hf]; exact .one ..

end

/-- Every instruction that makes a single access and is ready transfers at its address. -/
theorem exec_transfers {i : Instr} {k : Access} {sz : Size} {a : Word} {s : State} (h : i.access s = some (k, sz, a))
    (hr : i.Ready s) : Transfers s k sz a (exec i s) := by
  obtain ⟨hf, hc⟩ := hr
  cases i with
  | swp f => cases h; exact .swap .word f (hc _ rfl) hf nofun
  | swpb f => cases h; exact .swap .byte f (hc _ rfl) hf nofun
  | strhReg f | ldrhReg f | ldrsbReg f | ldrshReg f => cases h; exact transferHwReg_transfers (hc _ rfl) hf rfl rfl rfl
  | strhImm f | ldrhImm f | ldrsbImm f | ldrshImm f => cases h; exact transferHwImm_transfers (hc _ rfl) hf rfl rfl rfl
  | ldrImmPre f | ldrbImmPre f | strImmPre f | strbImmPre f =>
    cases h; exact transferImmPre_transfers (hc _ rfl) hf rfl rfl rfl
  | ldrImmPost f | ldrtImm f | ldrbImmPost f | ldrbtImm f | strImmPost f | strtImm f | strbImmPost f | strbtImm f =>
    cases h; exact transferImmPost_transfers (hc _ rfl) hf rfl rfl rfl
  | ldrRegPre f | ldrbRegPre f | strRegPre f | strbRegPre f =>
    cases h; exact transferRegPre_transfers (hc _ rfl) hf rfl rfl rfl
  | ldrRegPost f | ldrtReg f | ldrbRegPost f | ldrbtReg f | strRegPost f | strtReg f | strbRegPost f | strbtReg f =>
    cases h; exact transferRegPost_transfers (hc _ rfl) hf rfl rfl rfl
  | tLdrPc f | tLdrReg f | tLdrImm f | tLdrSp f => cases h; exact .one (.load .word) (low f.rd) _ none
  | tLdrbReg f | tLdrbImm f => cases h; exact .one (.load .byte) (low f.rd) _ none
  | tLdrhReg f | tLdrhImm f => cases h; exact .one (.load .half) (low f.rd) _ none
  | tLdsb f => cases h; exact .one (.load .signedByte) (low f.rd) _ none
  | tLdsh f => cases h; exact .one (.load .signedHalf) (low f.rd) _ none
  | tStrReg f | tStrImm f | tStrSp f => cases h; exact .one (.store .word) (low f.rd) _ none
  | tStrbReg f | tStrbImm f => cases h; exact .one (.store .byte) (low f.rd) _ none
  | tStrhReg f | tStrhImm f => cases h; exact .one (.store .half) (low f.rd) _ none
  | _ => cases h

/-! ### The Data Abort -/

/-- The state in which the Data Abort of a single transfer or swap is raised: a swap has counted both its accesses (R82). -/
def abortedAccess (k : Access) (a : Word) (s : State) : State :=
  { spend (if k = .swap then 2 else 1) 0 0 0 s with fault := { s.fault with aborted := some .data, abortAddr := a } }

/-- A transfer whose access aborts raises the Data Abort with nothing written (R283). -/
theorem Transfers.aborts {s : State} {k : Access} {sz : Size} {a : Word} {o : Out} (h : Transfers s k sz a o)
    (ho : oddHalf sz a = false) (ha : AbortsAt .n k sz a s) : o = raise .dataAbort (abortedAccess k a s) := by
  cases h with
  | one x rd a wb =>
    cases x with
    | load op =>
      have ho : oddHalf op.size a = false := ho
      have ha : AbortsAt .n .read op.size a s := ha
      simp only [transfer, loadReg, ho, memRead_aborts ha]
      rfl
    | store sz =>
      have ho : oddHalf sz a = false := ho
      have ha : AbortsAt .n .write sz a s := ha
      simp only [transfer, storeReg, ho, memWrite_aborts ha]
      rfl
  | swap op f hc hf hn =>
    rw [Machine.swap, guarded_pass hc hf, memSwap_aborts ha]
    rfl

/-- A halfword access is refused at the odd addresses (R75). -/
theorem oddHalf_iff (sz : Size) (a : Word) : oddHalf sz a = true ↔ sz = .half ∧ a.getLsbD 0 = true := by
  simp [oddHalf]

/-- An exception the catch mask does not hold is entered (R470). -/
theorem raise_entered {e : Exc} {s : State} (h : caught e s = false) : raise e s = .next (enter true e s) := by
  simp [raise, raiseState, h]

/-- One that it holds stops the machine (R511). -/
theorem raise_caught {e : Exc} {s : State} (h : caught e s = true) : raise e s = .next (caughtInline e s) := by
  simp [raise, raiseState, h]

/-- The Data Abort entered under a quiet refill, field by field (R470, R472). -/
theorem enter_dataAbort_quiet {u t : State} (hq : QuietRefill 16#32 false u) (ht : t = enter true .dataAbort u) :
    t.regs = writePhys u.regs (.lr 4) (u.pc + 8#32) ∧ t.spsr = u.spsr.set 4 u.cpsr.word ∧
      t.cpsr = { u.cpsr with m := .abort, t := false, i := true } ∧ t.pc = 16#32 ∧ t.fault = clean u.fault ∧
      t.mem = u.mem ∧ t.acc = u.acc ∧ t.coproc = u.coproc := by
  have hf : (u.cpsr.f || Exc.dataAbort == .fiq) = u.cpsr.f := Bool.or_false _
  subst ht
  rw [enter_eq true (by decide), hf, entered, branchWrite (Exc.vector .dataAbort) _ (by exact hq)]
  exact ⟨rfl, rfl, rfl, rfl, rfl, rfl, rfl, rfl⟩

/-- Settles O25: an access that aborts raises the Data Abort in a state where its cycles and the fault mark alone have
changed; the rest is the entry, or the stop of the debugger. -/
theorem dataAborts : Obligations.dataAborts := by
  unfold Obligations.dataAborts
  intro i k sz a s hi hr hh ha
  have ho : oddHalf sz a = false := by
    rw [Bool.eq_false_iff, ne_eq, oddHalf_iff]
    rintro ⟨hs, h0⟩
    rw [hh hs] at h0
    cases h0
  rw [(exec_transfers hi hr).aborts ho ha]
  refine ⟨fun hc hq => ?_, fun hc => ?_⟩
  · obtain ⟨hregs, hspsr, hcpsr, hpc, hfault, hmem, hacc, hcoproc⟩ := enter_dataAbort_quiet (u := abortedAccess k a s) hq rfl
    refine ⟨_, raise_entered hc, fun p hp => ?_, ?_, hspsr, hcpsr, hpc, by rw [hfault]; rfl, fun x => by rw [hmem]; rfl,
      hacc, hcoproc⟩
    · rw [hregs]; exact readPhys_writePhys_other _ _ (by simpa using hp)
    · rw [hregs]; exact readPhys_writePhys_same ..
  · exact raise_caught hc

end Sys2Proof.Machine
end

section
/-! Memory and the pc through every instruction (spec/20_memory.md R78, R87; spec/10_state.md R29, R30): what an instruction
does before it ends leaves the pc where it was, and, unless it stores, every byte; it ends with an advance that does not cross
the top, with a refill, or with the debugger's stop. -/

namespace Sys2Proof.Machine

/-! ### Work that leaves the pc, and memory but for the stores -/

/-- What an instruction does before it ends leaves the pc, the instruction set and the catch mask; unless it stores, it
leaves memory and the interface too, when the interface does nothing of its own accord. -/
structure Stays (st : Bool) (s u : State) : Prop where
  pc : u.pc = s.pc
  thumb : u.cpsr.t = s.cpsr.t
  catchMask : u.dbg.catchMask = s.dbg.catchMask
  mem : st = false → Passive s → u.mem = s.mem ∧ u.collab = s.collab

section
variable {st : Bool} {s t u : State}

theorem Stays.refl (s : State) : Stays st s s := ⟨rfl, rfl, rfl, fun _ _ => ⟨rfl, rfl⟩⟩

/-- The interface does nothing of its own accord by its data alone. -/
theorem Passive.congr (h : Passive s) (e : t.collab = s.collab) : Passive t := by unfold Passive; rw [e]; exact h

theorem Stays.trans (h : Stays st s t) (k : Stays st t u) : Stays st s u where
  pc := k.pc.trans h.pc
  thumb := k.thumb.trans h.thumb
  catchMask := k.catchMask.trans h.catchMask
  mem hs hp := by
    obtain ⟨hm, hc⟩ := h.mem hs hp
    obtain ⟨hm', hc'⟩ := k.mem hs (hp.congr hc)
    exact ⟨hm'.trans hm, hc'.trans hc⟩

/-- An access without a store, over an interface that does nothing of its own accord, leaves every byte (R78). -/
theorem access_passive (c : Cls) (k : Access) (sz : Size) (a : Word) (hp : Passive s) :
    (access c k sz a none s).2.mem = s.mem ∧ (access c k sz a none s).2.collab = s.collab := by
  have hs : ∀ r ∈ met c k sz a s.collab.regions, r.script = [] := fun r hr => by
    simpa using List.all_eq_true.1 hp.1 r (List.mem_of_mem_filter hr)
  have hb : ((met c k sz a s.collab.regions).flatMap fun r => r.reaction.before) = [] :=
    List.flatMap_eq_nil_iff.2 fun r hr => by simp [Region.reaction, hs r hr]
  have ha : ((met c k sz a s.collab.regions).flatMap fun r => r.reaction.after) = [] :=
    List.flatMap_eq_nil_iff.2 fun r hr => by simp [Region.reaction, hs r hr]
  simp only [access, ha, List.foldl_nil, landStore, touch, hb, clearAborted_collab, regions_after hp.1]
  split <;> simp

/-- Work is of this kind when it leaves memory and the interface, or may store. -/
theorem Work.stays (w : Work false [] s u) (hm : st = false → Passive s → u.mem = s.mem ∧ u.collab = s.collab) :
    Stays st s u := ⟨w.pc, w.thumb, w.catchMask, hm⟩

theorem memRead_stays (c : Cls) (sz : Size) (a : Word) (s : State) : Stays st s (memRead c sz a s).state := by
  refine (memRead_work c sz a s).stays fun _ hp => ?_
  simp only [memRead, checkAborted_state]
  simpa using access_passive c .read sz a (s := countAccess c 1 s) (hp.congr (by simp))

theorem readWords_stays (n : Nat) (c : Cls) (a : Word) (s : State) : Stays st s (readWords n c a s).state := by
  induction n generalizing c a s with
  | zero => exact .refl s
  | succ n ih =>
    have h1 : Stays st s _ := memRead_stays c .word a s
    unfold readWords
    split
    · rename_i s1 he; rwa [he] at h1
    · rename_i w s1 he
      rw [he] at h1
      have h2 := h1.trans (ih .s (a + 4#32) s1)
      split
      · rename_i s2 he2; rwa [he2] at h2
      · rename_i ws s2 he2; rwa [he2] at h2

/-- The cycles of a row, over an interface that does nothing of its own accord. -/
theorem charges_stays (row : Cycles) (s : State) : Stays st s (charges row s) :=
  (charges_work row s).stays fun _ hp => by rw [charges_quiet row hp.2.1 hp.2.2]; exact ⟨rfl, rfl⟩

theorem Stays.charges (h : Stays st s u) (row : Cycles) : Stays st s (charges row u) := h.trans (charges_stays row u)

/-- A call of a handler, which has no way to memory (spec/47_arm_coprocessor_swi_undefined.md R321, log 1). -/
theorem HandlerFrame.stays (h : HandlerFrame s u) : Stays st s u :=
  ⟨h.pc, by rw [h.cpsr], h.catchMask, fun _ _ => ⟨h.mem, h.collab⟩⟩

/-- Writes of registers. -/
theorem Stays.setRegs (h : Stays st s t) (e : u = { t with regs := u.regs }) : Stays st s u :=
  h.trans ⟨by rw [e], by rw [e], by rw [e], fun _ _ => by rw [e]; exact ⟨rfl, rfl⟩⟩

theorem Stays.writeReg (h : Stays st s u) (n : RegNum) (v : Word) : Stays st s (writeReg u n v) :=
  h.setRegs (writeBank_eq ..)

theorem Stays.writeBack (h : Stays st s u) (wb : Option (RegNum × Word)) : Stays st s (writeBack wb u) := by
  cases wb with
  | none => exact h
  | some w => exact h.writeReg w.1 w.2

theorem Stays.writeLoaded (h : Stays st s u) (rs : List RegNum) (ws : List Word) : Stays st s (writeLoaded rs ws u) :=
  h.setRegs (writeLoaded_eq rs ws u)

theorem Stays.writeLoadedUser (h : Stays st s u) (rs : List RegNum) (ws : List Word) :
    Stays st s (writeLoadedUser rs ws u) := by
  induction rs generalizing ws u with
  | nil => exact h
  | cons r rs ih =>
    cases ws with
    | nil => exact h
    | cons w ws => exact ih (h.setRegs (writeBank_eq ..)) ws

/-- Writes of the status that leave the instruction set. -/
theorem Stays.setPsr (h : Stays st s t) (ht : u.cpsr.t = t.cpsr.t)
    (e : u = { t with cpsr := u.cpsr, spsr := u.spsr, freeCount := u.freeCount }) : Stays st s u :=
  h.trans ⟨by rw [e], ht, by rw [e], fun _ _ => by rw [e]; exact ⟨rfl, rfl⟩⟩

/-- What the entry of an exception saves (spec/60_exceptions.md R470). -/
theorem Stays.saveReturn (h : Stays st s u) (inline : Bool) (x : Exc) : Stays st s (saveReturn inline x u) :=
  h.trans (by cases x <;> exact ⟨rfl, rfl, rfl, fun _ _ => ⟨rfl, rfl⟩⟩)

end

/-! ### The ends -/

/-- How an instruction that started in `s` may end: with an advance that does not cross the top of the address space, with a
refill, with the debugger's stop, or with no next state. -/
inductive Lands (st : Bool) (s : State) : Out → Prop
  | next (u : State) (w : Stays st s u) (h : CanAdvance u) : Lands st s (.next (forward u))
  | branch (v : Word) (p : Psr) (u : State) (w : Stays st s u) : Lands st s (.next (branchTo v { u with cpsr := p }))
  | caught (x : Exc) (u : State) (w : Stays st s u) (h : caught x u = true) : Lands st s (.next (caughtInline x u))
  | fault (r : Fault) : Lands st s (.fault r)
  | refused (r : Refusal) : Lands st s (.refused r)

/-- A plain advance from the last instruction of the address space is refused (spec/10_state.md R30, U30). -/
theorem advance_top {s : State} (h : ¬ CanAdvance s) : advance s = .refused .wrapAtTop := by
  unfold CanAdvance at h
  simp only [advance, not_not.1 h, if_true]

section
variable {st : Bool} {s u : State}

theorem advance_lands (w : Stays st s u) : Lands st s (advance u) := by
  by_cases h : CanAdvance u
  · rw [advance_next h]; exact .next u w h
  · rw [advance_top h]; exact .refused _

theorem branchTo_lands (w : Stays st s u) (v : Word) : Lands st s (.next (branchTo v u)) := .branch v u.cpsr u w

theorem jump_lands (w : Stays st s u) (p : Psr) (v : Word) : Lands st s (jump v { u with cpsr := p }) := by
  rw [jump_eq]
  split
  · exact .branch v p u w
  · exact .refused _

theorem branchExchange_lands (w : Stays st s u) (v : Word) : Lands st s (branchExchange v u) := by
  unfold branchExchange
  simp only []
  split
  · exact .refused _
  · exact .branch v _ u w

theorem exceptionReturn_lands (w : Stays st s u) (v : Word) : Lands st s (exceptionReturn v u) := by
  unfold exceptionReturn
  split
  · exact .fault _
  · split
    · exact .fault _
    · exact jump_lands w _ v

theorem enter_lands (w : Stays st s u) (x : Exc) : Lands st s (.next (enter true x u)) := by
  rw [enter_branch]; exact .branch _ _ _ (w.saveReturn true x)

theorem raise_lands (w : Stays st s u) (x : Exc) : Lands st s (raise x u) := by
  unfold raise raiseState
  split
  · rename_i h; exact .caught x u w h
  · exact enter_lands w x

theorem trap_lands (x : Exc) : Lands st s (trap x s) := by
  unfold trap
  split
  · rename_i h; exact .caught x s (.refl s) h
  · exact enter_lands (charges_stays _ s) x

theorem guarded_lands {c : Cond} {ch : Option Restriction} {body : State → Out} (h : Lands st s (body s)) :
    Lands st s (guarded c ch body s) := by
  unfold guarded
  split
  · cases ch with
    | none => exact h
    | some r => exact .refused _
  · exact advance_lands (.refl s)

theorem checked_lands {ch : Option Restriction} {body : State → Out} (h : Lands st s (body u)) :
    Lands st s (checked ch body u) := by
  cases ch with
  | none => exact h
  | some r => exact .refused _

/-! ### Data processing -/

theorem writeResult_lands (w : Stays st s u) (b : Bool) (rd : RegNum) (r : AluOut) : Lands st s (writeResult b rd r u) := by
  unfold writeResult
  split
  · split
    · exact exceptionReturn_lands w _
    · exact jump_lands w u.cpsr _
  · refine advance_lands ?_
    split
    · exact (w.writeReg rd r.value).setPsr rfl rfl
    · exact w.writeReg rd r.value

theorem dataA1_lands (op : AluOp) (f : A1) : Lands st s (dataA1 op f s) :=
  guarded_lands (writeResult_lands (charges_stays _ s) _ _ _)

theorem dataA2_lands (op : AluOp) (f : A2) : Lands st s (dataA2 op f s) :=
  guarded_lands (writeResult_lands (charges_stays _ s) _ _ _)

theorem dataA3_lands (op : AluOp) (f : A3) : Lands st s (dataA3 op f s) :=
  guarded_lands (writeResult_lands (charges_stays _ s) _ _ _)

theorem moveA1_lands (op : AluOp) (f : A1Mov) : Lands st s (moveA1 op f s) :=
  guarded_lands (writeResult_lands (charges_stays _ s) _ _ _)

theorem moveA2_lands (op : AluOp) (f : A2Mov) : Lands st s (moveA2 op f s) :=
  guarded_lands (writeResult_lands (charges_stays _ s) _ _ _)

theorem moveA3_lands (op : AluOp) (f : A3Mov) : Lands st s (moveA3 op f s) :=
  guarded_lands (writeResult_lands (charges_stays _ s) _ _ _)

theorem compareA1_lands (op : AluOp) (f : A1Cmp) : Lands st s (compareA1 op f s) :=
  guarded_lands (advance_lands ((charges_stays _ s).setPsr rfl rfl))

theorem compareA2_lands (op : AluOp) (f : A2Cmp) : Lands st s (compareA2 op f s) :=
  guarded_lands (advance_lands ((charges_stays _ s).setPsr rfl rfl))

theorem compareA3_lands (op : AluOp) (f : A3Cmp) : Lands st s (compareA3 op f s) :=
  guarded_lands (advance_lands ((charges_stays _ s).setPsr rfl rfl))

theorem thumbResult_lands (w : Stays st s u) (rd : LoReg) (r : AluOut) : Lands st s (thumbResult rd r u) :=
  advance_lands ((w.writeReg (low rd) r.value).setPsr rfl rfl)

theorem thumbArith_lands (op : AluOp) (rd : LoReg) (a b : Word) : Lands st s (thumbArith op rd a b s) :=
  thumbResult_lands (charges_stays _ s) rd _

theorem thumbShiftImm_lands (ty : ShiftType) (f : T1) : Lands st s (thumbShiftImm ty f s) :=
  thumbResult_lands (charges_stays _ s) f.rd _

theorem thumbShiftReg_lands (ty : ShiftType) (f : T4) : Lands st s (thumbShiftReg ty f s) :=
  thumbResult_lands (charges_stays _ s) f.rd _

theorem thumbLogical_lands (rd : LoReg) (r : Word) : Lands st s (thumbLogical rd r s) :=
  advance_lands (((charges_stays _ s).writeReg (low rd) r).setPsr rfl rfl)

theorem thumbCompare_lands (op : AluOp) (a b : Word) : Lands st s (thumbCompare op a b s) :=
  advance_lands ((charges_stays _ s).setPsr rfl rfl)

theorem plainResult_lands (rd : RegNum) (r : Word) : Lands st s (plainResult rd r s) :=
  advance_lands ((charges_stays _ s).writeReg rd r)

theorem highResult_lands (hd : RegNum) (r : Word) : Lands st s (highResult hd r s) := by
  have w : Stays st s (immCycles s) := charges_stays _ s
  unfold highResult
  split
  · exact branchTo_lands w r
  · exact advance_lands (w.writeReg hd r)

/-! ### Status registers -/

theorem writeSpsr_lands (w : Stays st s u) (mask : BitVec 4) (operand : Word) : Lands st s (writeSpsr mask operand u) := by
  unfold writeSpsr
  split
  · exact .fault _
  · split
    · exact .fault _
    · rename_i t he
      unfold setSpsrOf at he
      split at he <;> cases he
      exact advance_lands (w.setPsr rfl rfl)

theorem writeCpsr_lands (w : Stays st s u) (v : Word) : Lands st s (writeCpsr v u) := by
  unfold writeCpsr
  split
  · exact .fault _
  · rename_i p _
    split
    · exact .refused _
    · rename_i ht
      split
      · exact .branch _ p u w
      · exact advance_lands (w.setPsr (by simpa using ht) rfl)

theorem moveToStatus_lands (r : Bool) (mask : BitVec 4) (operand : Word) : Lands st s (moveToStatus r mask operand s) := by
  have w : Stays st s (statusCycles s) := charges_stays _ s
  unfold moveToStatus
  split
  · exact writeSpsr_lands w mask operand
  · exact writeCpsr_lands w _

theorem execMrs_lands (f : Mrs) : Lands st s (execMrs f s) := by
  refine guarded_lands ?_
  split
  · exact .fault _
  · exact advance_lands ((charges_stays _ s).writeReg _ _)

/-! ### Multiplies -/

theorem finishMul_lands (b : Bool) (rd : RegNum) (r : Word) (row : Cycles) : Lands st s (finishMul b rd r row s) := by
  have w : Stays st s (writeReg (charges row s) rd r) := (charges_stays row s).writeReg rd r
  refine advance_lands ?_
  cases b
  · exact w
  · exact w.setPsr rfl rfl

theorem finishMull_lands (f : Mull) (p : BitVec 64) (row : Cycles) : Lands st s (finishMull f p row s) := by
  have w := ((charges_stays (st := st) row s).writeReg f.rdLo (p.extractLsb' 0 32)).writeReg f.rdHi
    (p.extractLsb' 32 32)
  refine advance_lands ?_
  unfold multiplyFlags64
  split
  · exact w.setPsr rfl rfl
  · exact w

/-! ### Transfers -/

theorem finishLoad_lands (w : Stays st s u) (rd : RegNum) (wb : Option (RegNum × Word)) (data : Word) :
    Lands st s (finishLoad rd wb data u) := by
  have w := (w.charges u.params.cycles.load).writeBack wb
  unfold finishLoad
  simp only []
  split
  · exact jump_lands w (writeBack wb (charges u.params.cycles.load u)).cpsr data
  · exact advance_lands (w.writeReg rd data)

theorem loadReg_lands (op : LoadOp) (rd : RegNum) (a : Word) (wb : Option (RegNum × Word)) :
    Lands st s (loadReg op rd a wb s) := by
  have w : Stays st s _ := memRead_stays .n op.size a s
  unfold loadReg
  split
  · exact .refused _
  · split <;> rename_i he <;> rw [he] at w
    · exact raise_lands w _
    · exact finishLoad_lands w rd wb _

theorem storeReg_lands (sz : Size) (rd : RegNum) (a : Word) (wb : Option (RegNum × Word)) :
    Lands true s (storeReg sz rd a wb s) := by
  have w : Stays true s _ := (memWrite_work .n sz a (storeValue s rd) s).stays nofun
  unfold storeReg
  split
  · exact .refused _
  · split <;> rename_i he <;> rw [he] at w
    · exact raise_lands w _
    · exact advance_lands ((w.charges _).writeBack wb)

/-- A transfer of one register; a store is one of memory's. -/
theorem transfer_lands {x : Transfer} (hx : x.kind = .read ∨ st = true) (rd : RegNum) (a : Word)
    (wb : Option (RegNum × Word)) : Lands st s (transfer x rd a wb s) := by
  cases x with
  | load op => exact loadReg_lands op rd a wb
  | store sz =>
    rcases hx with hk | rfl
    · cases hk
    · exact storeReg_lands sz rd a wb

theorem transferImmPre_lands {x : Transfer} (hx : x.kind = .read ∨ st = true) (b : Bool) (f : LsImmPre) :
    Lands st s (transferImmPre x b f s) := guarded_lands (transfer_lands hx _ _ _)

theorem transferImmPost_lands {x : Transfer} (hx : x.kind = .read ∨ st = true) (b : Bool) (f : LsImmPost) :
    Lands st s (transferImmPost x b f s) := guarded_lands (transfer_lands hx _ _ _)

theorem transferRegPre_lands {x : Transfer} (hx : x.kind = .read ∨ st = true) (b : Bool) (f : LsRegPre) :
    Lands st s (transferRegPre x b f s) := guarded_lands (transfer_lands hx _ _ _)

theorem transferRegPost_lands {x : Transfer} (hx : x.kind = .read ∨ st = true) (b : Bool) (f : LsRegPost) :
    Lands st s (transferRegPost x b f s) := guarded_lands (transfer_lands hx _ _ _)

theorem transferHwReg_lands {x : Transfer} (hx : x.kind = .read ∨ st = true) (f : HwReg) :
    Lands st s (transferHwReg x f s) := guarded_lands (transfer_lands hx _ _ _)

theorem transferHwImm_lands {x : Transfer} (hx : x.kind = .read ∨ st = true) (f : HwImm) :
    Lands st s (transferHwImm x f s) := guarded_lands (transfer_lands hx _ _ _)

theorem swap_lands (op : LoadOp) (f : Swp) : Lands true s (swap op f s) := by
  have w : Stays true s _ := (memSwap_work op.size (readReg s f.rn) (readReg s f.rm) s).stays nofun
  refine guarded_lands ?_
  split <;> rename_i he <;> rw [he] at w
  · exact raise_lands w _
  · exact advance_lands ((w.charges _).writeReg _ _)

theorem loadWords_lands {n : Nat} {a : Word} {k : List Word → State → Out}
    (hk : ∀ ws u, Stays st s u → Lands st s (k ws u)) : Lands st s (loadWords n a k s) := by
  have w : Stays st s _ := readWords_stays n .n a s
  unfold loadWords
  split <;> rename_i he <;> rw [he] at w
  · exact raise_lands w _
  · exact hk _ _ w

theorem storeWords_lands {ws : List Word} {a : Word} {k : State → Out} (hk : ∀ u, Stays true s u → Lands true s (k u)) :
    Lands true s (storeWords ws a k s) := by
  have w : Stays true s _ := (writeWords_work ws .n a s).stays nofun
  unfold storeWords
  split <;> rename_i he <;> rw [he] at w
  · exact raise_lands w _
  · exact hk _ w

theorem execLdm1_lands (f : Block) : Lands st s (execLdm1 f s) :=
  guarded_lands <| loadWords_lands fun ws u w => by
    have w := ((w.charges u.params.cycles.loadMultiple).writeBack (wbOf f.w f.rn (addrBlock f s))).writeLoaded
      (listRegs f.list) ws
    simp only []
    split
    · exact jump_lands w (Machine.writeLoaded (listRegs f.list) ws
        (Machine.writeBack (wbOf f.w f.rn (addrBlock f s)) (loadCycles u))).cpsr _
    · exact advance_lands w

theorem execLdm2_lands (f : BlockUser) : Lands st s (execLdm2 f s) := by
  refine guarded_lands ?_
  split
  · exact loadWords_lands fun ws u w => advance_lands ((w.charges _).writeLoadedUser _ _)
  · exact .refused _

theorem execLdm3_lands (f : BlockUser) : Lands st s (execLdm3 f s) :=
  guarded_lands <| loadWords_lands fun _ _ w => exceptionReturn_lands (((w.charges _).writeBack _).writeLoaded _ _) _

theorem execStm1_lands (f : Block) : Lands true s (execStm1 f s) :=
  guarded_lands <| storeWords_lands fun _ w => advance_lands ((w.charges _).writeBack _)

theorem execStm2_lands (f : Block) : Lands true s (execStm2 f s) := by
  refine guarded_lands ?_
  split
  · exact storeWords_lands fun u w => advance_lands (w.charges _)
  · exact .refused _

theorem execTPush_lands (f : T14) : Lands true s (execTPush f s) :=
  checked_lands <| storeWords_lands fun _ w => advance_lands ((w.charges _).writeReg _ _)

theorem execTStmia_lands (f : T15) : Lands true s (execTStmia f s) :=
  checked_lands <| storeWords_lands fun _ w => advance_lands ((w.charges _).writeReg _ _)

theorem execTPop_lands (f : T14) : Lands st s (execTPop f s) :=
  checked_lands <| loadWords_lands fun ws u w => by
    have w := ((w.charges u.params.cycles.loadMultiple).writeReg spNum (readReg s spNum + listBytes (popRegs f))).writeLoaded
      (popRegs f) ws
    simp only []
    split
    · exact branchTo_lands w _
    · exact advance_lands w

theorem execTLdmia_lands (f : T15) : Lands st s (execTLdmia f s) :=
  checked_lands <| loadWords_lands fun ws u w => by
    refine advance_lands (Stays.writeLoaded ?_ _ _)
    split
    · exact w.charges _
    · exact (w.charges _).writeReg _ _

/-! ### Branches -/

theorem branchIf_lands (c : Cond) (f : T16) : Lands st s (branchIf c f s) := by
  unfold branchIf
  split
  · exact branchTo_lands (charges_stays _ s) _
  · exact advance_lands (.refl s)

/-! ### Coprocessors -/

theorem withHandler_lands {cp : BitVec 4} {call : HandlerCall} {k : CoprocAnswer → Out}
    (hk : ∀ a : CoprocAnswer, Stays st s a.state → Lands st s (k a)) : Lands st s (withHandler cp call k s) := by
  unfold withHandler
  split
  · exact raise_lands (.refl s) _
  · rename_i hd _
    have w : Stays st s (callHandler cp hd call s).state := (callHandler_frame cp hd call s).stays
    simp only []
    split
    · exact raise_lands w _
    · unfold faultTriggered
      split
      · exact raise_lands w _
      · exact advance_lands w
    · exact hk _ w

theorem execCdp_lands (f : CpDp) : Lands st s (execCdp f s) :=
  guarded_lands <| withHandler_lands fun _ w => advance_lands (w.charges _)

theorem execMcr_lands (f : CpRt) : Lands st s (execMcr f s) :=
  guarded_lands <| withHandler_lands fun _ w => advance_lands (w.charges _)

theorem execMrc_lands (f : CpRt) : Lands st s (execMrc f s) :=
  guarded_lands <| withHandler_lands fun a w => by
    simp only []
    split
    · exact advance_lands ((w.charges _).setPsr rfl rfl)
    · exact advance_lands ((w.charges _).writeReg _ _)

theorem execLdc_lands (f : CpLs) : Lands st s (execLdc f s) :=
  guarded_lands <| withHandler_lands fun a w => checked_lands <| by
    have w : Stays st s _ := w.trans (readWords_stays a.words .n (addrCp f a.state).addr a.state)
    split <;> rename_i he <;> rw [he] at w
    · exact raise_lands w _
    · exact advance_lands (((w.charges _).writeBack _).trans (giveWords_frame ..).stays)

theorem execStc_lands (f : CpLs) : Lands true s (execStc f s) :=
  guarded_lands <| withHandler_lands fun a w => checked_lands <| by
    have w : Stays true s _ := w.trans
      ((storeHandlerWords_work f.cp (encCpLs 0#1 f) a.words 0 .n (addrCp f a.state).addr a.state).stays nofun)
    split <;> rename_i he <;> rw [he] at w
    · exact raise_lands w _
    · exact advance_lands ((w.charges _).writeBack _)

end

/-! ### Every instruction -/

/-- Every instruction ends in one of these ways; the stores are those that `Instr.stores` names. -/
theorem exec_lands (i : Instr) (s : State) : Lands i.stores s (exec i s) := by
  cases i with
  | andA1 f | eorA1 f | subA1 f | rsbA1 f | addA1 f | adcA1 f | sbcA1 f | rscA1 f | orrA1 f | bicA1 f =>
    exact dataA1_lands ..
  | andA2 f | eorA2 f | subA2 f | rsbA2 f | addA2 f | adcA2 f | sbcA2 f | rscA2 f | orrA2 f | bicA2 f =>
    exact dataA2_lands ..
  | andA3 f | eorA3 f | subA3 f | rsbA3 f | addA3 f | adcA3 f | sbcA3 f | rscA3 f | orrA3 f | bicA3 f =>
    exact dataA3_lands ..
  | tstA1 f | teqA1 f | cmpA1 f | cmnA1 f => exact compareA1_lands ..
  | tstA2 f | teqA2 f | cmpA2 f | cmnA2 f => exact compareA2_lands ..
  | tstA3 f | teqA3 f | cmpA3 f | cmnA3 f => exact compareA3_lands ..
  | movA1 f | mvnA1 f => exact moveA1_lands ..
  | movA2 f | mvnA2 f => exact moveA2_lands ..
  | movA3 f | mvnA3 f => exact moveA3_lands ..
  | mrs f => exact execMrs_lands f
  | msrImm f => rw [exec_msrImm]; exact guarded_lands (moveToStatus_lands ..)
  | msrReg f => rw [exec_msrReg]; exact guarded_lands (moveToStatus_lands ..)
  | bx f => rw [exec_bx]; exact guarded_lands (branchExchange_lands (charges_stays _ s) _)
  | mul f => rw [exec_mul]; exact guarded_lands (finishMul_lands ..)
  | mla f => rw [exec_mla]; exact guarded_lands (finishMul_lands ..)
  | umull f => rw [exec_umull]; exact guarded_lands (finishMull_lands ..)
  | umlal f => rw [exec_umlal]; exact guarded_lands (finishMull_lands ..)
  | smull f => rw [exec_smull]; exact guarded_lands (finishMull_lands ..)
  | smlal f => rw [exec_smlal]; exact guarded_lands (finishMull_lands ..)
  | swp f | swpb f => exact swap_lands ..
  | strhReg f => exact transferHwReg_lands (.inr rfl) f
  | strhImm f => exact transferHwImm_lands (.inr rfl) f
  | ldrhReg f | ldrsbReg f | ldrshReg f => exact transferHwReg_lands (.inl rfl) f
  | ldrhImm f | ldrsbImm f | ldrshImm f => exact transferHwImm_lands (.inl rfl) f
  | ldrImmPre f | ldrbImmPre f => exact transferImmPre_lands (.inl rfl) _ f
  | strImmPre f | strbImmPre f => exact transferImmPre_lands (.inr rfl) _ f
  | ldrImmPost f | ldrtImm f | ldrbImmPost f | ldrbtImm f => exact transferImmPost_lands (.inl rfl) _ f
  | strImmPost f | strtImm f | strbImmPost f | strbtImm f => exact transferImmPost_lands (.inr rfl) _ f
  | ldrRegPre f | ldrbRegPre f => exact transferRegPre_lands (.inl rfl) _ f
  | strRegPre f | strbRegPre f => exact transferRegPre_lands (.inr rfl) _ f
  | ldrRegPost f | ldrtReg f | ldrbRegPost f | ldrbtReg f => exact transferRegPost_lands (.inl rfl) _ f
  | strRegPost f | strtReg f | strbRegPost f | strbtReg f => exact transferRegPost_lands (.inr rfl) _ f
  | undefined f => rw [exec_undefined]; exact guarded_lands (trap_lands _)
  | swi f => rw [exec_swi]; exact guarded_lands (trap_lands _)
  | ldm1 f => exact execLdm1_lands f
  | ldm2 f => exact execLdm2_lands f
  | ldm3 f => exact execLdm3_lands f
  | stm1 f => exact execStm1_lands f
  | stm2 f => exact execStm2_lands f
  | b f => rw [exec_b]; exact guarded_lands (branchTo_lands (charges_stays _ s) _)
  | bl f => rw [exec_bl]; exact guarded_lands (branchTo_lands ((charges_stays _ s).writeReg _ _) _)
  | ldc f => exact execLdc_lands f
  | stc f => exact execStc_lands f
  | cdp f => exact execCdp_lands f
  | mrc f => exact execMrc_lands f
  | mcr f => exact execMcr_lands f
  | tLslImm f | tLsrImm f | tAsrImm f => exact thumbShiftImm_lands ..
  | tAddReg f | tSubReg f | tAddImm3 f | tSubImm3 f | tAddImm8 f | tSubImm8 f | tAdc f | tSbc f | tNeg f =>
    exact thumbArith_lands ..
  | tMovImm f | tAnd f | tEor f | tOrr f | tBic f | tMvn f => exact thumbLogical_lands ..
  | tCmpImm f | tCmp f | tCmn f => exact thumbCompare_lands ..
  | tLslReg f | tLsrReg f | tAsrReg f | tRorReg f => exact thumbShiftReg_lands ..
  | tTst f => rw [exec_tTst]; exact advance_lands ((charges_stays _ s).setPsr rfl rfl)
  | tBlHi f => rw [exec_tBlHi]; exact advance_lands ((charges_stays _ s).writeReg _ _)
  | tMul f => rw [exec_tMul]; exact checked_lands (finishMul_lands ..)
  | tAddHi f => rw [exec_tAddHi]; exact checked_lands (highResult_lands ..)
  | tMovHi f => rw [exec_tMovHi]; exact checked_lands (highResult_lands ..)
  | tCmpHi f => rw [exec_tCmpHi]; exact checked_lands (thumbCompare_lands ..)
  | tBx f => rw [exec_tBx]; exact branchExchange_lands (charges_stays _ s) _
  | tLdrPc f | tLdrReg f | tLdrImm f | tLdrSp f => exact loadReg_lands .word (low f.rd) _ none
  | tLdrbReg f | tLdrbImm f => exact loadReg_lands .byte (low f.rd) _ none
  | tLdrhReg f | tLdrhImm f => exact loadReg_lands .half (low f.rd) _ none
  | tLdsb f => exact loadReg_lands .signedByte (low f.rd) _ none
  | tLdsh f => exact loadReg_lands .signedHalf (low f.rd) _ none
  | tStrReg f | tStrImm f | tStrSp f => exact storeReg_lands .word (low f.rd) _ none
  | tStrbReg f | tStrbImm f => exact storeReg_lands .byte (low f.rd) _ none
  | tStrhReg f | tStrhImm f => exact storeReg_lands .half (low f.rd) _ none
  | tAddPc f | tAddSp f | tAddToSp f | tSubFromSp f => exact plainResult_lands ..
  | tPush f => exact execTPush_lands f
  | tPop f => exact execTPop_lands f
  | tStmia f => exact execTStmia_lands f
  | tLdmia f => exact execTLdmia_lands f
  | tBEq f | tBNe f | tBCs f | tBCc f | tBMi f | tBPl f | tBVs f | tBVc f | tBHi f | tBLs f | tBGe f | tBLt f | tBGt f
    | tBLe f =>
    exact branchIf_lands ..
  | tSwi f => exact trap_lands _
  | tB f => rw [exec_tB]; exact branchTo_lands (charges_stays _ s) _
  | tBlLo f => rw [exec_tBlLo]; exact branchTo_lands ((charges_stays _ s).writeReg _ _) _

end Sys2Proof.Machine
end

section
/-! Who writes memory (spec/20_memory.md R78, R87), and what the spec refuses: forms, odd halfwords and the advance across the
top of the address space (spec/93_implementation_defined.md; spec/20_memory.md R75; spec/10_state.md R30). -/

namespace Sys2Proof.Machine

/-! ### Memory under the fetches -/

section
variable {s : State}

/-- A fetch over an interface that does nothing of its own accord leaves every byte. -/
theorem fetch_passive (a : Word) (hp : Passive s) : (fetch a s).2.mem = s.mem ∧ (fetch a s).2.collab = s.collab := by
  simpa [fetch] using access_passive (fetchClass a s.pipe.lastFetch) .fetch (fetchSize s) a
    (s := countAccess (fetchClass a s.pipe.lastFetch) 1 s) (hp.congr (by simp))

theorem refill_passive (hp : Passive s) : (refill s).mem = s.mem := by
  obtain ⟨hm, hc⟩ := fetch_passive s.pc (s := flush s) (hp.congr rfl)
  simp only [refill]
  refine (fetch_passive _ ?_).1.trans hm
  exact hp.congr hc

theorem branchTo_passive (v : Word) (hp : Passive s) : (branchTo v s).mem = s.mem := refill_passive (hp.congr rfl)

end

/-- However an instruction that stores nothing ends, every byte is as before. -/
theorem Lands.mem {s t : State} (h : Lands false s (.next t)) (hp : Passive s) : t.mem = s.mem := by
  cases h with
  | next u w => exact (w.mem rfl hp).1
  | branch v p u w =>
    obtain ⟨hm, hc⟩ := w.mem rfl hp
    exact (branchTo_passive v (s := { u with cpsr := p }) (hp.congr hc)).trans hm
  | caught x u w => exact (w.mem rfl hp).1

/-- Settles O56: an instruction that is no store works and ends without a write of memory (`exec_lands`). -/
theorem memoryWrittenOnlyByStores : Obligations.memoryWrittenOnlyByStores := by
  unfold Obligations.memoryWrittenOnlyByStores
  intro i s t hi hp h x
  have hl := exec_lands i s
  rw [h, hi] at hl
  rw [hl.mem hp]

/-! ### Refused forms -/

/-- A checked meaning whose form has none is refused by that form's name. -/
theorem checked_stop {ch : Option Restriction} {r : Restriction} {body : State → Out} {s : State} (hc : ch = some r) :
    checked ch body s = .refused (.form r) := by
  subst hc; rfl

/-- The check an instruction with a condition makes before anything else: LDC and STC ask their handler first (log 18). -/
def checkFirst : Instr → Option Restriction
  | .ldc _ | .stc _ => none
  | i => i.restriction

theorem checkFirst_eq {i : Instr} (hl : ∀ f, i ≠ .ldc f) (hs : ∀ f, i ≠ .stc f) : checkFirst i = i.restriction := by
  unfold checkFirst
  split
  · exact absurd rfl (hl _)
  · exact absurd rfl (hs _)
  · rfl

/-- The outcome in `s` of a meaning that evaluates its condition, then its check. -/
inductive Guarded (c : Cond) (ch : Option Restriction) (s : State) : Out → Prop
  | mk (body : State → Out) : Guarded c ch s (guarded c ch body s)

section
variable {c : Cond} {ch : Option Restriction} {s : State} {o : Out}

theorem Guarded.fails (h : Guarded c ch s o) (hc : conditionPassed c s.cpsr = false) : o = advance s := by
  obtain ⟨body⟩ := h; exact guarded_fail hc

theorem Guarded.stops (h : Guarded c ch s o) {r : Restriction} (hc : conditionPassed c s.cpsr = true) (hr : ch = some r) :
    o = .refused (.form r) := by
  obtain ⟨body⟩ := h; exact guarded_stop hc hr

theorem dataA1_guarded (op : AluOp) (f : A1) (s : State) : Guarded f.cond none s (dataA1 op f s) := ⟨_⟩

theorem dataA2_guarded (op : AluOp) (f : A2) (s : State) : Guarded f.cond none s (dataA2 op f s) := ⟨_⟩

theorem dataA3_guarded (op : AluOp) (f : A3) (s : State) : Guarded f.cond f.check s (dataA3 op f s) := ⟨_⟩

theorem moveA1_guarded (op : AluOp) (f : A1Mov) (s : State) : Guarded f.cond none s (moveA1 op f s) := ⟨_⟩

theorem moveA2_guarded (op : AluOp) (f : A2Mov) (s : State) : Guarded f.cond none s (moveA2 op f s) := ⟨_⟩

theorem moveA3_guarded (op : AluOp) (f : A3Mov) (s : State) : Guarded f.cond f.check s (moveA3 op f s) := ⟨_⟩

theorem compareA1_guarded (op : AluOp) (f : A1Cmp) (s : State) : Guarded f.cond none s (compareA1 op f s) := ⟨_⟩

theorem compareA2_guarded (op : AluOp) (f : A2Cmp) (s : State) : Guarded f.cond none s (compareA2 op f s) := ⟨_⟩

theorem compareA3_guarded (op : AluOp) (f : A3Cmp) (s : State) : Guarded f.cond f.check s (compareA3 op f s) := ⟨_⟩

theorem transferImmPre_guarded {x : Transfer} {b : Bool} {f : LsImmPre} (h : f.check b = ch) :
    Guarded f.cond ch s (transferImmPre x b f s) := by
  subst h; exact ⟨_⟩

theorem transferImmPost_guarded {x : Transfer} {b : Bool} {f : LsImmPost} (h : f.check b = ch) :
    Guarded f.cond ch s (transferImmPost x b f s) := by
  subst h; exact ⟨_⟩

theorem transferRegPre_guarded {x : Transfer} {b : Bool} {f : LsRegPre} (h : f.check b = ch) :
    Guarded f.cond ch s (transferRegPre x b f s) := by
  subst h; exact ⟨_⟩

theorem transferRegPost_guarded {x : Transfer} {b : Bool} {f : LsRegPost} (h : f.check b = ch) :
    Guarded f.cond ch s (transferRegPost x b f s) := by
  subst h; exact ⟨_⟩

theorem transferHwReg_guarded (x : Transfer) (f : HwReg) (s : State) :
    Guarded f.cond f.check s (transferHwReg x f s) := ⟨_⟩

theorem transferHwImm_guarded (x : Transfer) (f : HwImm) (s : State) :
    Guarded f.cond f.check s (transferHwImm x f s) := ⟨_⟩

theorem swap_guarded (op : LoadOp) (f : Swp) (s : State) : Guarded f.cond f.check s (swap op f s) := ⟨_⟩

end

/-- An instruction with a condition is guarded by it and by its first check. -/
theorem exec_guarded {i : Instr} {c : Cond} (h : i.cond = some c) (s : State) :
    Guarded c (checkFirst i) s (exec i s) := by
  cases i with
  | andA1 f | eorA1 f | subA1 f | rsbA1 f | addA1 f | adcA1 f | sbcA1 f | rscA1 f | orrA1 f | bicA1 f =>
    cases h; exact dataA1_guarded ..
  | andA2 f | eorA2 f | subA2 f | rsbA2 f | addA2 f | adcA2 f | sbcA2 f | rscA2 f | orrA2 f | bicA2 f =>
    cases h; exact dataA2_guarded ..
  | andA3 f | eorA3 f | subA3 f | rsbA3 f | addA3 f | adcA3 f | sbcA3 f | rscA3 f | orrA3 f | bicA3 f =>
    cases h; exact dataA3_guarded ..
  | tstA1 f | teqA1 f | cmpA1 f | cmnA1 f => cases h; exact compareA1_guarded ..
  | tstA2 f | teqA2 f | cmpA2 f | cmnA2 f => cases h; exact compareA2_guarded ..
  | tstA3 f | teqA3 f | cmpA3 f | cmnA3 f => cases h; exact compareA3_guarded ..
  | movA1 f | mvnA1 f => cases h; exact moveA1_guarded ..
  | movA2 f | mvnA2 f => cases h; exact moveA2_guarded ..
  | movA3 f | mvnA3 f => cases h; exact moveA3_guarded ..
  | mrs f => cases h; rw [exec_mrs]; exact ⟨_⟩
  | msrImm f => cases h; rw [exec_msrImm]; exact ⟨_⟩
  | msrReg f => cases h; rw [exec_msrReg]; exact ⟨_⟩
  | bx f => cases h; rw [exec_bx]; exact ⟨_⟩
  | mul f => cases h; rw [exec_mul]; exact ⟨_⟩
  | mla f => cases h; rw [exec_mla]; exact ⟨_⟩
  | umull f => cases h; rw [exec_umull]; exact ⟨_⟩
  | umlal f => cases h; rw [exec_umlal]; exact ⟨_⟩
  | smull f => cases h; rw [exec_smull]; exact ⟨_⟩
  | smlal f => cases h; rw [exec_smlal]; exact ⟨_⟩
  | swp f | swpb f => cases h; exact swap_guarded ..
  | strhReg f | ldrhReg f | ldrsbReg f | ldrshReg f => cases h; exact transferHwReg_guarded ..
  | strhImm f | ldrhImm f | ldrsbImm f | ldrshImm f => cases h; exact transferHwImm_guarded ..
  | ldrImmPre f | ldrbImmPre f | strImmPre f | strbImmPre f => cases h; exact transferImmPre_guarded rfl
  | ldrImmPost f | ldrtImm f | ldrbImmPost f | ldrbtImm f | strImmPost f | strtImm f | strbImmPost f | strbtImm f =>
    cases h; exact transferImmPost_guarded rfl
  | ldrRegPre f | ldrbRegPre f | strRegPre f | strbRegPre f => cases h; exact transferRegPre_guarded rfl
  | ldrRegPost f | ldrtReg f | ldrbRegPost f | ldrbtReg f | strRegPost f | strtReg f | strbRegPost f | strbtReg f =>
    cases h; exact transferRegPost_guarded rfl
  | undefined f => cases h; rw [exec_undefined]; exact ⟨_⟩
  | swi f => cases h; rw [exec_swi]; exact ⟨_⟩
  | ldm1 f => cases h; rw [exec_ldm1]; exact ⟨_⟩
  | ldm2 f => cases h; rw [exec_ldm2]; exact ⟨_⟩
  | ldm3 f => cases h; rw [exec_ldm3]; exact ⟨_⟩
  | stm1 f => cases h; rw [exec_stm1]; exact ⟨_⟩
  | stm2 f => cases h; rw [exec_stm2]; exact ⟨_⟩
  | b f => cases h; rw [exec_b]; exact ⟨_⟩
  | bl f => cases h; rw [exec_bl]; exact ⟨_⟩
  | ldc f => cases h; rw [exec_ldc]; exact ⟨_⟩
  | stc f => cases h; rw [exec_stc]; exact ⟨_⟩
  | cdp f => cases h; rw [exec_cdp]; exact ⟨_⟩
  | mrc f => cases h; rw [exec_mrc]; exact ⟨_⟩
  | mcr f => cases h; rw [exec_mcr]; exact ⟨_⟩
  | _ => cases h

/-- A Thumb instruction that the form of its fields refuses checks it first. -/
theorem exec_restricted_thumb {i : Instr} {r : Restriction} (h : i.cond = none) (hr : i.restriction = some r) (s : State) :
    exec i s = .refused (.form r) := by
  cases i with
  | tMul f => rw [exec_tMul]; exact checked_stop hr
  | tAddHi f => rw [exec_tAddHi]; exact checked_stop hr
  | tCmpHi f => rw [exec_tCmpHi]; exact checked_stop hr
  | tMovHi f => rw [exec_tMovHi]; exact checked_stop hr
  | tPush f => rw [exec_tPush]; exact checked_stop hr
  | tPop f => rw [exec_tPop]; exact checked_stop hr
  | tStmia f => rw [exec_tStmia]; exact checked_stop hr
  | tLdmia f => rw [exec_tLdmia]; exact checked_stop hr
  | _ => nomatch h, hr

/-- A form the spec gives no meaning is refused, once its condition has passed. -/
theorem exec_restricted {i : Instr} {r : Restriction} {s : State} (hr : i.restriction = some r) (hl : ∀ f, i ≠ .ldc f)
    (hs : ∀ f, i ≠ .stc f) (hc : ∀ c, i.cond = some c → conditionPassed c s.cpsr = true) :
    exec i s = .refused (.form r) := by
  cases h : i.cond with
  | none => exact exec_restricted_thumb h hr s
  | some c => exact (exec_guarded h s).stops (hc c h) ((checkFirst_eq hl hs).trans hr)

/-- An instruction whose handler answers that it handles it goes on. -/
theorem withHandler_handled {cp : BitVec 4} {call : HandlerCall} {h : Handler} {k : CoprocAnswer → Out} {s : State}
    (hb : s.coproc[cp.toFin] = .bound h) (ha : (callHandler cp h call s).result = .handled) :
    withHandler cp call k s = k (callHandler cp h call s) := by
  simp only [withHandler, hb, ha]

theorem execLdc_restricted {f : CpLs} {h : Handler} {r : Restriction} {s : State} (hr : f.check = some r)
    (hc : conditionPassed f.cond s.cpsr = true) (hb : s.coproc[f.cp.toFin] = .bound h)
    (ha : (callHandler f.cp h (.ldc (encCpLs 1#1 f)) s).result = .handled) : execLdc f s = .refused (.form r) := by
  rw [execLdc, guarded_pass hc rfl, withHandler_handled hb ha, checked_stop hr]

theorem execStc_restricted {f : CpLs} {h : Handler} {r : Restriction} {s : State} (hr : f.check = some r)
    (hc : conditionPassed f.cond s.cpsr = true) (hb : s.coproc[f.cp.toFin] = .bound h)
    (ha : (callHandler f.cp h (.stc (encCpLs 0#1 f)) s).result = .handled) : execStc f s = .refused (.form r) := by
  rw [execStc, guarded_pass hc rfl, withHandler_handled hb ha, checked_stop hr]

/-- A halfword transfer at an odd address is refused (R75). -/
theorem Transfers.odd {s : State} {k : Access} {a : Word} {o : Out} (h : Transfers s k .half a o)
    (ha : a.getLsbD 0 = true) : o = .refused .oddHalfword := by
  generalize hz : Size.half = sz at h
  have ho : oddHalf sz a = true := (oddHalf_iff sz a).2 ⟨hz.symm, ha⟩
  cases h with
  | one x rd a wb =>
    cases x with
    | load op =>
      have ho : oddHalf op.size a = true := ho
      simp only [transfer, loadReg, ho, if_true]
    | store sz =>
      have ho : oddHalf sz a = true := ho
      simp only [transfer, storeReg, ho, if_true]
  | swap op f hc hf hn => exact absurd hz.symm hn

/-! ### The top of the address space -/

section
variable {st : Bool} {s t u : State}

/-- Work before an advance that would cross the top ends in the refusal of that advance. -/
theorem Stays.advance_top (w : Stays st s u) (h : ¬ CanAdvance s) : advance u = .refused .wrapAtTop :=
  Machine.advance_top fun hu => h (hu.congr w.pc.symm w.thumb.symm)

theorem writeResult_top (w : Stays st s u) (h : ¬ CanAdvance s) {b : Bool} {rd : RegNum} (hd : rd ≠ 15#4) (r : AluOut) :
    writeResult b rd r u = .refused .wrapAtTop := by
  rw [writeResult, if_neg hd]
  refine Stays.advance_top ?_ h (st := st)
  split
  · exact (w.writeReg rd r.value).setPsr rfl rfl
  · exact w.writeReg rd r.value

theorem dataA1_top (h : ¬ CanAdvance s) {f : A1} (hc : conditionPassed f.cond s.cpsr = true) (hd : f.rd ≠ 15#4)
    (op : AluOp) : dataA1 op f s = .refused .wrapAtTop := by
  rw [dataA1, guarded_pass hc rfl]
  exact writeResult_top (st := false) (charges_stays _ s) h hd _

/-- Format A1 of the operations with two operands is one meaning, for ten operations. -/
theorem valueRows_dataA1 : ∀ row ∈ valueRows, ∀ f : A1, ∀ s, ∃ op, exec (row.1 f) s = dataA1 op f s := by
  intro row h
  simp only [valueRows, List.mem_append, List.mem_map] at h
  obtain ⟨l, hl, rfl⟩ | ⟨l, hl, rfl⟩ := h
  · simp only [logicalRows, List.mem_cons, List.not_mem_nil, or_false] at hl
    rcases hl with rfl | rfl | rfl | rfl <;> exact fun _ _ => ⟨_, rfl⟩
  · simp only [arithRows, List.mem_cons, List.not_mem_nil, or_false] at hl
    rcases hl with rfl | rfl | rfl | rfl | rfl | rfl <;> exact fun _ _ => ⟨_, rfl⟩

/-- After a branch the slots are valid and the latest fetch was from pc + isz (spec/40_fetch_decode_dispatch.md R170). -/
theorem branchTo_refilled (v : Word) (u : State) : (branchTo v u).pipe.valid = true ∧ (branchTo v u).pipe.lastFetch =
    { valid := true, addr := (branchTo v u).pc + isz (branchTo v u), size := isz (branchTo v u) } := by
  have h := branchTo_frame v u
  have hz : isz (branchTo v u) = isz u := by simp only [isz, h.cpsr]
  rw [hz, h.pc]
  exact refill_pipe _

/-- What goes on from the last instruction of the address space has refilled the slots, or was stopped by the catch mask. -/
theorem Lands.top (hl : Lands st s (.next t)) (h : ¬ CanAdvance s) :
    (t.pipe.valid = true ∧ t.pipe.lastFetch = { valid := true, addr := t.pc + isz t, size := isz t }) ∨
      (t.pipe.valid = false ∧ t.pc = s.pc ∧ ∃ e, t.dbg.halt = some (.caught e) ∧ Machine.caught e s = true) := by
  cases hl with
  | next u w hu => exact absurd (hu.congr w.pc.symm w.thumb.symm) h
  | branch v p u w => exact .inl (branchTo_refilled v _)
  | caught x u w hx => exact .inr ⟨rfl, w.pc, x, rfl, by rwa [Machine.caught, ← w.catchMask]⟩

end

/-- Settles O26: forms by their check, odd halfwords by the one access, and the top of the address space by the ways an
instruction may end (`exec_lands`). -/
theorem refusedForms : Obligations.refusedForms := by
  unfold Obligations.refusedForms
  refine ⟨fun i r s hr hl hs hc => exec_restricted hr hl hs hc, ?_, fun i k a s hi ha hr => (exec_transfers hi hr).odd ha,
    fun s h => ⟨fun i c hi hc => ?_, fun row hrow f hc hd => ?_, fun f => ?_, fun i t ht => ?_⟩⟩
  · rintro i w f call h r s (⟨rfl, rfl⟩ | ⟨rfl, rfl⟩) hw hr hc hb ha
    · cases hw; exact execLdc_restricted hr hc hb ha
    · cases hw; exact execStc_restricted hr hc hb ha
  · rw [(exec_guarded hi s).fails hc, advance_top h]
  · obtain ⟨op, e⟩ := valueRows_dataA1 row hrow f s
    rw [e, dataA1_top h hc hd]
  · exact Stays.advance_top (st := false) (((charges_stays _ s).writeReg _ _).setPsr rfl rfl) h
  · have hl := exec_lands i s
    rw [ht] at hl
    exact hl.top h

end Sys2Proof.Machine
end

section
/-! The decoder and the encoder are inverse to each other (spec/30_encoding.md R102, R130). Each instruction has its row, and
the row is exact: the encoder puts back the row's fixed bits and every other bit of the word read. So a word that matches
its row is encoded to itself, and an encoded instruction matches its row. -/

namespace Sys2Proof

/-! ### A word put together again from its fields -/

section
variable {n : Nat}

/-- A field put back at its place is the word, masked there. -/
theorem place_field (w : BitVec n) (lo len : Nat) :
    place lo (field w lo len) = w &&& (BitVec.allOnes len).setWidth n <<< lo := by
  have h := place_and (BitVec.allOnes len) lo w
  rw [BitVec.allOnes_and] at h
  rw [← h, BitVec.and_comm, place]

theorem flagBit_bit (w : BitVec n) (i : Nat) : flagBit (bit w i) = field w i 1 := by
  rw [bit_field]
  generalize field w i 1 = b
  revert b
  decide

theorem shiftBits_shiftOfBits : ∀ b : BitVec 2, shiftBits (shiftOfBits b) = b := by decide

/-- The number a condition is read from is the condition's number. -/
theorem eq_condBits_of_condOfBits {b : BitVec 4} {c : Cond} (h : condOfBits b = some c) : b = condBits c := by
  revert b c
  decide

/-! With sums of pieces nested to the right, a masked part of the word moves to the front of fixed pieces and joins the
masked part before it. -/

theorem and_or_and_or (w a b x : BitVec n) : w &&& a ||| (w &&& b ||| x) = w &&& (a ||| b) ||| x := by
  rw [BitVec.and_or_distrib_left, BitVec.or_assoc]

theorem place_or_and {k : Nat} (w a : BitVec n) (p : Nat) (v : BitVec k) :
    place p v ||| w &&& a = w &&& a ||| place p v := BitVec.or_comm ..

theorem place_or_and_or {k : Nat} (w a x : BitVec n) (p : Nat) (v : BitVec k) :
    place p v ||| (w &&& a ||| x) = w &&& a ||| (place p v ||| x) := by
  rw [← BitVec.or_assoc, place_or_and, BitVec.or_assoc]

/-- The bits a mask leaves out, and those it fixes, are the whole word. -/
theorem and_not_or_of_match {w m v : BitVec n} (h : w &&& m = v) : w &&& ~~~m ||| v = w := by
  rw [← h, ← BitVec.and_or_distrib_left, BitVec.or_comm, BitVec.or_not_self, BitVec.and_allOnes]

/-- Fixed bits put into a word match, when they lie under the mask. -/
theorem match_of_and_not_or {w m v x : BitVec n} (h : w = x &&& ~~~m ||| v) (hv : v &&& m = v) : w &&& m = v := by
  simp [h, or_and, BitVec.and_assoc, hv]

end

/-! ### Each format written back from the fields read: the bits of its fields, and its fixed bits -/

section
variable {c : Cond} {w : Word} (hc : field w 28 4 = condBits c)
include hc

theorem enc_read_A1 (op : BitVec 4) :
    encA1 op (readA1 c w) = w &&& 0xF01FFFFF#32 ||| (place 25 0b001#3 ||| place 21 op) := by
  simp only [encA1, readA1, ← hc, flagBit_bit, place_field, BitVec.or_assoc, place_or_and, place_or_and_or,
    and_or_and_or]
  rfl

theorem enc_read_A1Cmp (op : BitVec 4) :
    encA1Cmp op (readA1Cmp c w) =
      w &&& 0xF00F0FFF#32 ||| (place 25 0b001#3 ||| (place 21 op ||| place 20 0b1#1)) := by
  simp only [encA1Cmp, readA1Cmp, ← hc, place_field, BitVec.or_assoc, place_or_and, place_or_and_or, and_or_and_or]
  rfl

theorem enc_read_A1Mov (op : BitVec 4) :
    encA1Mov op (readA1Mov c w) = w &&& 0xF010FFFF#32 ||| (place 25 0b001#3 ||| place 21 op) := by
  simp only [encA1Mov, readA1Mov, ← hc, flagBit_bit, place_field, BitVec.or_assoc, place_or_and, place_or_and_or,
    and_or_and_or]
  rfl

theorem enc_read_A2 (op : BitVec 4) : encA2 op (readA2 c w) = w &&& 0xF01FFFEF#32 ||| place 21 op := by
  simp only [encA2, readA2, ← hc, shiftBits_shiftOfBits, flagBit_bit, place_field, BitVec.or_assoc, place_or_and,
    and_or_and_or]
  rfl

theorem enc_read_A2Cmp (op : BitVec 4) :
    encA2Cmp op (readA2Cmp c w) = w &&& 0xF00F0FEF#32 ||| (place 21 op ||| place 20 0b1#1) := by
  simp only [encA2Cmp, readA2Cmp, ← hc, shiftBits_shiftOfBits, place_field, BitVec.or_assoc, place_or_and,
    place_or_and_or, and_or_and_or]
  rfl

theorem enc_read_A2Mov (op : BitVec 4) : encA2Mov op (readA2Mov c w) = w &&& 0xF010FFEF#32 ||| place 21 op := by
  simp only [encA2Mov, readA2Mov, ← hc, shiftBits_shiftOfBits, flagBit_bit, place_field, BitVec.or_assoc,
    place_or_and, and_or_and_or]
  rfl

theorem enc_read_A3 (op : BitVec 4) :
    encA3 op (readA3 c w) = w &&& 0xF01FFF6F#32 ||| (place 21 op ||| place 4 0b1#1) := by
  simp only [encA3, readA3, ← hc, shiftBits_shiftOfBits, flagBit_bit, place_field, BitVec.or_assoc, place_or_and,
    place_or_and_or, and_or_and_or]
  rfl

theorem enc_read_A3Cmp (op : BitVec 4) :
    encA3Cmp op (readA3Cmp c w) = w &&& 0xF00F0F6F#32 ||| (place 21 op ||| (place 20 0b1#1 ||| place 4 0b1#1)) := by
  simp only [encA3Cmp, readA3Cmp, ← hc, shiftBits_shiftOfBits, place_field, BitVec.or_assoc, place_or_and,
    place_or_and_or, and_or_and_or]
  rfl

theorem enc_read_A3Mov (op : BitVec 4) :
    encA3Mov op (readA3Mov c w) = w &&& 0xF010FF6F#32 ||| (place 21 op ||| place 4 0b1#1) := by
  simp only [encA3Mov, readA3Mov, ← hc, shiftBits_shiftOfBits, flagBit_bit, place_field, BitVec.or_assoc,
    place_or_and, place_or_and_or, and_or_and_or]
  rfl

theorem enc_read_Mrs : encMrs (readMrs c w) = w &&& 0xF040F000#32 ||| 0x010F0000#32 := by
  simp only [encMrs, readMrs, ← hc, flagBit_bit, place_field, BitVec.or_assoc, place_or_and, place_or_and_or,
    and_or_and_or]
  rfl

theorem enc_read_MsrImm : encMsrImm (readMsrImm c w) = w &&& 0xF04F0FFF#32 ||| 0x0320F000#32 := by
  simp only [encMsrImm, readMsrImm, ← hc, flagBit_bit, place_field, BitVec.or_assoc, place_or_and, place_or_and_or,
    and_or_and_or]
  rfl

theorem enc_read_MsrReg : encMsrReg (readMsrReg c w) = w &&& 0xF04F000F#32 ||| 0x0120F000#32 := by
  simp only [encMsrReg, readMsrReg, ← hc, flagBit_bit, place_field, BitVec.or_assoc, place_or_and, place_or_and_or,
    and_or_and_or]
  rfl

theorem enc_read_Bx : encBx (readBx c w) = w &&& 0xF000000F#32 ||| 0x012FFF10#32 := by
  simp only [encBx, readBx, ← hc, place_field, BitVec.or_assoc, place_or_and, place_or_and_or, and_or_and_or]
  rfl

theorem enc_read_Mul : encMul (readMul c w) = w &&& 0xF01F0F0F#32 ||| 0x00000090#32 := by
  simp only [encMul, readMul, ← hc, flagBit_bit, place_field, BitVec.or_assoc, place_or_and, and_or_and_or,
    ← BitVec.and_or_distrib_left]
  rfl

theorem enc_read_Mla : encMla (readMla c w) = w &&& 0xF01FFF0F#32 ||| 0x00200090#32 := by
  simp only [encMla, readMla, ← hc, flagBit_bit, place_field, BitVec.or_assoc, place_or_and, place_or_and_or,
    and_or_and_or]
  rfl

theorem enc_read_Mull (ua : BitVec 2) :
    encMull ua (readMull c w) =
      w &&& 0xF01FFF0F#32 ||| (place 23 0b00001#5 ||| (place 21 ua ||| place 4 0b1001#4)) := by
  simp only [encMull, readMull, ← hc, flagBit_bit, place_field, BitVec.or_assoc, place_or_and, place_or_and_or,
    and_or_and_or]
  rfl

theorem enc_read_Swp (b : BitVec 1) :
    encSwp b (readSwp c w) = w &&& 0xF00FF00F#32 ||| (place 23 0b00010#5 ||| (place 22 b ||| place 4 0b1001#4)) := by
  simp only [encSwp, readSwp, ← hc, place_field, BitVec.or_assoc, place_or_and, place_or_and_or, and_or_and_or]
  rfl

theorem enc_read_HwReg (l : BitVec 1) (sh : BitVec 2) :
    encHwReg l sh (readHwReg c w) =
      w &&& 0xF1AFF00F#32 ||| (place 20 l ||| (place 7 0b1#1 ||| (place 5 sh ||| place 4 0b1#1))) := by
  simp only [encHwReg, readHwReg, ← hc, flagBit_bit, place_field, BitVec.or_assoc, place_or_and, place_or_and_or,
    and_or_and_or, ← BitVec.and_or_distrib_left]
  rfl

theorem enc_read_HwImm (l : BitVec 1) (sh : BitVec 2) :
    encHwImm l sh (readHwImm c w) =
      w &&& 0xF1AFFF0F#32 ||| (place 22 0b1#1 ||| (place 20 l ||| (place 7 0b1#1 ||| (place 5 sh ||| place 4 0b1#1)))) := by
  simp only [encHwImm, readHwImm, ← hc, flagBit_bit, place_field, BitVec.or_assoc, place_or_and, place_or_and_or,
    and_or_and_or, ← BitVec.and_or_distrib_left]
  rfl

theorem enc_read_LsImmPre (b l : BitVec 1) :
    encLsImmPre b l (readLsImmPre c w) =
      w &&& 0xF0AFFFFF#32 ||| (place 25 0b010#3 ||| (place 24 0b1#1 ||| (place 22 b ||| place 20 l))) := by
  simp only [encLsImmPre, readLsImmPre, ← hc, flagBit_bit, place_field, BitVec.or_assoc, place_or_and,
    place_or_and_or, and_or_and_or]
  rfl

theorem enc_read_LsImmPost (b t l : BitVec 1) :
    encLsImmPost b t l (readLsImmPost c w) =
      w &&& 0xF08FFFFF#32 ||| (place 25 0b010#3 ||| (place 22 b ||| (place 21 t ||| place 20 l))) := by
  simp only [encLsImmPost, readLsImmPost, ← hc, flagBit_bit, place_field, BitVec.or_assoc, place_or_and,
    place_or_and_or, and_or_and_or]
  rfl

theorem enc_read_LsRegPre (b l : BitVec 1) :
    encLsRegPre b l (readLsRegPre c w) =
      w &&& 0xF0AFFFEF#32 ||| (place 25 0b011#3 ||| (place 24 0b1#1 ||| (place 22 b ||| place 20 l))) := by
  simp only [encLsRegPre, readLsRegPre, ← hc, shiftBits_shiftOfBits, flagBit_bit, place_field, BitVec.or_assoc,
    place_or_and, place_or_and_or, and_or_and_or]
  rfl

theorem enc_read_LsRegPost (b t l : BitVec 1) :
    encLsRegPost b t l (readLsRegPost c w) =
      w &&& 0xF08FFFEF#32 ||| (place 25 0b011#3 ||| (place 22 b ||| (place 21 t ||| place 20 l))) := by
  simp only [encLsRegPost, readLsRegPost, ← hc, shiftBits_shiftOfBits, flagBit_bit, place_field, BitVec.or_assoc,
    place_or_and, place_or_and_or, and_or_and_or]
  rfl

theorem enc_read_UndefSpace : encUndefSpace (readUndefSpace c w) = w &&& 0xF1FFFFEF#32 ||| 0x06000010#32 := by
  simp only [encUndefSpace, readUndefSpace, ← hc, place_field, BitVec.or_assoc, place_or_and, place_or_and_or,
    and_or_and_or]
  rfl

theorem enc_read_Block (s l : BitVec 1) :
    encBlock s l (readBlock c w) = w &&& 0xF1AFFFFF#32 ||| (place 25 0b100#3 ||| (place 22 s ||| place 20 l)) := by
  simp only [encBlock, readBlock, ← hc, flagBit_bit, place_field, BitVec.or_assoc, place_or_and, place_or_and_or,
    and_or_and_or]
  rfl

theorem enc_read_BlockUser (pc : BitVec 1) :
    encBlockUser pc (readBlockUser c w) =
      w &&& 0xF1AF7FFF#32 ||| (place 25 0b100#3 ||| (place 22 0b1#1 ||| (place 20 0b1#1 ||| place 15 pc))) := by
  simp only [encBlockUser, readBlockUser, ← hc, flagBit_bit, place_field, BitVec.or_assoc, place_or_and,
    place_or_and_or, and_or_and_or]
  rfl

theorem enc_read_Branch (l : BitVec 1) :
    encBranch l (readBranch c w) = w &&& 0xF0FFFFFF#32 ||| (place 25 0b101#3 ||| place 24 l) := by
  simp only [encBranch, readBranch, ← hc, place_field, BitVec.or_assoc, place_or_and, place_or_and_or, and_or_and_or]
  rfl

theorem enc_read_CpLs (l : BitVec 1) :
    encCpLs l (readCpLs c w) = w &&& 0xF1EFFFFF#32 ||| (place 25 0b110#3 ||| place 20 l) := by
  simp only [encCpLs, readCpLs, ← hc, flagBit_bit, place_field, BitVec.or_assoc, place_or_and, place_or_and_or,
    and_or_and_or]
  rfl

theorem enc_read_CpDp : encCpDp (readCpDp c w) = w &&& 0xF0FFFFEF#32 ||| 0x0E000000#32 := by
  simp only [encCpDp, readCpDp, ← hc, place_field, BitVec.or_assoc, place_or_and, and_or_and_or]
  rfl

theorem enc_read_CpRt (l : BitVec 1) :
    encCpRt l (readCpRt c w) = w &&& 0xF0EFFFEF#32 ||| (place 24 0b1110#4 ||| (place 20 l ||| place 4 0b1#1)) := by
  simp only [encCpRt, readCpRt, ← hc, place_field, BitVec.or_assoc, place_or_and, place_or_and_or, and_or_and_or]
  rfl

theorem enc_read_Swi : encSwi (readSwi c w) = w &&& 0xF0FFFFFF#32 ||| 0x0F000000#32 := by
  simp only [encSwi, readSwi, ← hc, place_field, BitVec.or_assoc, place_or_and, and_or_and_or]
  rfl

end

section
variable (h : Half)

theorem enc_read_T1 (op : BitVec 2) : encT1 op (readT1 h) = h &&& 0x07FF#16 ||| place 11 op := by
  simp only [encT1, readT1, place_field, BitVec.or_assoc, place_or_and, and_or_and_or]
  rfl

theorem enc_read_T2Reg (op : BitVec 1) :
    encT2Reg op (readT2Reg h) = h &&& 0x01FF#16 ||| (place 11 0b00011#5 ||| place 9 op) := by
  simp only [encT2Reg, readT2Reg, place_field, BitVec.or_assoc, place_or_and, place_or_and_or, and_or_and_or]
  rfl

theorem enc_read_T2Imm (op : BitVec 1) :
    encT2Imm op (readT2Imm h) = h &&& 0x01FF#16 ||| (place 11 0b00011#5 ||| (place 10 0b1#1 ||| place 9 op)) := by
  simp only [encT2Imm, readT2Imm, place_field, BitVec.or_assoc, place_or_and, place_or_and_or, and_or_and_or]
  rfl

theorem enc_read_T3 (op : BitVec 2) :
    encT3 op (readT3 h) = h &&& 0x07FF#16 ||| (place 13 0b001#3 ||| place 11 op) := by
  simp only [encT3, readT3, place_field, BitVec.or_assoc, place_or_and, place_or_and_or, and_or_and_or]
  rfl

theorem enc_read_T4 (op : BitVec 4) :
    encT4 op (readT4 h) = h &&& 0x003F#16 ||| (place 10 0b010000#6 ||| place 6 op) := by
  simp only [encT4, readT4, place_field, BitVec.or_assoc, place_or_and, place_or_and_or, and_or_and_or]
  rfl

theorem enc_read_T5 (op : BitVec 2) :
    encT5 op (readT5 h) = h &&& 0x00FF#16 ||| (place 10 0b010001#6 ||| place 8 op) := by
  simp only [encT5, readT5, flagBit_bit, place_field, BitVec.or_assoc, place_or_and, place_or_and_or, and_or_and_or]
  rfl

theorem enc_read_T5Bx : encT5Bx (readT5Bx h) = h &&& 0x0078#16 ||| 0x4700#16 := by
  simp only [encT5Bx, readT5Bx, flagBit_bit, place_field, BitVec.or_assoc, place_or_and, place_or_and_or,
    and_or_and_or]
  rfl

theorem enc_read_T6 (op : BitVec 5) : encT6 op (readT6 h) = h &&& 0x07FF#16 ||| place 11 op := by
  simp only [encT6, readT6, place_field, BitVec.or_assoc, place_or_and, and_or_and_or]
  rfl

theorem enc_read_T7 (op : BitVec 3) :
    encT7 op (readT7 h) = h &&& 0x01FF#16 ||| (place 12 0b0101#4 ||| place 9 op) := by
  simp only [encT7, readT7, place_field, BitVec.or_assoc, place_or_and, place_or_and_or, and_or_and_or]
  rfl

theorem enc_read_T9 (op : BitVec 5) : encT9 op (readT9 h) = h &&& 0x07FF#16 ||| place 11 op := by
  simp only [encT9, readT9, place_field, BitVec.or_assoc, place_or_and, and_or_and_or]
  rfl

theorem enc_read_T13 (s : BitVec 1) :
    encT13 s (readT13 h) = h &&& 0x007F#16 ||| (place 8 0b10110000#8 ||| place 7 s) := by
  simp only [encT13, readT13, place_field, BitVec.or_assoc, place_or_and, place_or_and_or]
  rfl

theorem enc_read_T14 (l : BitVec 1) :
    encT14 l (readT14 h) = h &&& 0x01FF#16 ||| (place 12 0b1011#4 ||| (place 11 l ||| place 9 0b10#2)) := by
  simp only [encT14, readT14, flagBit_bit, place_field, BitVec.or_assoc, place_or_and, place_or_and_or, and_or_and_or]
  rfl

theorem enc_read_T15 (l : BitVec 1) :
    encT15 l (readT15 h) = h &&& 0x07FF#16 ||| (place 12 0b1100#4 ||| place 11 l) := by
  simp only [encT15, readT15, place_field, BitVec.or_assoc, place_or_and, place_or_and_or, and_or_and_or]
  rfl

theorem enc_read_T16 (c : BitVec 4) :
    encT16 c (readT16 h) = h &&& 0x00FF#16 ||| (place 12 0b1101#4 ||| place 8 c) := by
  simp only [encT16, readT16, place_field, BitVec.or_assoc, place_or_and, place_or_and_or]
  rfl

theorem enc_read_T18 (op : BitVec 5) : encT18 op (readT18 h) = h &&& 0x07FF#16 ||| place 11 op := by
  simp only [encT18, readT18, place_field, place_or_and]
  rfl

end

/-! ### The row of each instruction -/

/-- The encoder gives back, of an instruction read through the row, the row's fixed bits and all other bits of the word. -/
def ArmRow.Exact (r : ArmRow) : Prop :=
  ∀ {c w}, field w 28 4 = condBits c → encode (r.build c w) = .arm (w &&& ~~~r.mask ||| r.value)

/-- The same for a Thumb row, which has no condition. -/
def ThumbRow.Exact (r : ThumbRow) : Prop := ∀ h, encode (r.build h) = .thumb (h &&& ~~~r.mask ||| r.value)

/-- An instruction has an exact row, which reads it back from its encoding. The constructors of `Instr` stand in the order of
the tables, the 106 ARM rows first: a constructor's number is its row's. -/
inductive Instr.HasRow (i : Instr) : Prop where
  | arm (r : ArmRow) (c : Cond) (w : Word) (hr : armRows[i.ctorIdx]? = some r) (hx : r.Exact) (hw : encode i = .arm w)
      (hc : field w 28 4 = condBits c) (hb : r.build c w = i)
  | thumb (r : ThumbRow) (k : Nat) (h : Half) (hk : i.ctorIdx = k + 106) (hr : thumbRows[k]? = some r) (hx : r.Exact)
      (hh : encode i = .thumb h) (hb : r.build h = i)

/-- An ARM row reads its own format, `mk` of what `read` gives. -/
theorem Instr.HasRow.of_arm {F : Type} {mk : F → Instr} {read : Cond → Word → F} {enc : F → Word} {f : F} {m v s : Word}
    {c : Cond} (he : ∀ f, encode (mk f) = .arm (enc f))
    (hr : armRows[(mk f).ctorIdx]? = some ⟨m, v, s, fun c w => mk (read c w)⟩)
    (hx : ∀ {c w}, field w 28 4 = condBits c → enc (read c w) = w &&& ~~~m ||| v)
    (hc : field (enc f) 28 4 = condBits c) (hf : read c (enc f) = f) : (mk f).HasRow :=
  .arm _ c (enc f) hr (fun hc => (he _).trans (congrArg _ (hx hc))) (he f) hc (congrArg mk hf)

/-- The same for a Thumb row. -/
theorem Instr.HasRow.of_thumb {F : Type} {mk : F → Instr} {read : Half → F} {enc : F → Half} {f : F} {m v s : Half}
    {k : Nat} (he : ∀ f, encode (mk f) = .thumb (enc f)) (hk : (mk f).ctorIdx = k + 106)
    (hr : thumbRows[k]? = some ⟨m, v, s, fun h => mk (read h)⟩)
    (hx : ∀ h, enc (read h) = h &&& ~~~m ||| v) (hf : read (enc f) = f) : (mk f).HasRow :=
  .thumb _ k (enc f) hk hr (fun h => (he _).trans (congrArg _ (hx h))) (he f) (congrArg mk hf)

/-- Format by format: its fields and its condition are read back from its encoding, and its row is exact. -/
theorem Instr.hasRow (i : Instr) : i.HasRow := by
  cases i with
  | andA1 f | eorA1 f | subA1 f | rsbA1 f | addA1 f | adcA1 f | sbcA1 f | rscA1 f | orrA1 f | bicA1 f =>
    exact .of_arm (fun _ => rfl) rfl (enc_read_A1 · _) (cond_enc_A1 _ f) (read_enc_A1 _ f)
  | andA2 f | eorA2 f | subA2 f | rsbA2 f | addA2 f | adcA2 f | sbcA2 f | rscA2 f | orrA2 f | bicA2 f =>
    exact .of_arm (fun _ => rfl) rfl (enc_read_A2 · _) (cond_enc_A2 _ f) (read_enc_A2 _ f)
  | andA3 f | eorA3 f | subA3 f | rsbA3 f | addA3 f | adcA3 f | sbcA3 f | rscA3 f | orrA3 f | bicA3 f =>
    exact .of_arm (fun _ => rfl) rfl (enc_read_A3 · _) (cond_enc_A3 _ f) (read_enc_A3 _ f)
  | tstA1 f | teqA1 f | cmpA1 f | cmnA1 f =>
    exact .of_arm (fun _ => rfl) rfl (enc_read_A1Cmp · _) (cond_enc_A1Cmp _ f) (read_enc_A1Cmp _ f)
  | tstA2 f | teqA2 f | cmpA2 f | cmnA2 f =>
    exact .of_arm (fun _ => rfl) rfl (enc_read_A2Cmp · _) (cond_enc_A2Cmp _ f) (read_enc_A2Cmp _ f)
  | tstA3 f | teqA3 f | cmpA3 f | cmnA3 f =>
    exact .of_arm (fun _ => rfl) rfl (enc_read_A3Cmp · _) (cond_enc_A3Cmp _ f) (read_enc_A3Cmp _ f)
  | movA1 f | mvnA1 f =>
    exact .of_arm (fun _ => rfl) rfl (enc_read_A1Mov · _) (cond_enc_A1Mov _ f) (read_enc_A1Mov _ f)
  | movA2 f | mvnA2 f =>
    exact .of_arm (fun _ => rfl) rfl (enc_read_A2Mov · _) (cond_enc_A2Mov _ f) (read_enc_A2Mov _ f)
  | movA3 f | mvnA3 f =>
    exact .of_arm (fun _ => rfl) rfl (enc_read_A3Mov · _) (cond_enc_A3Mov _ f) (read_enc_A3Mov _ f)
  | mrs f => exact .of_arm (fun _ => rfl) rfl enc_read_Mrs (cond_enc_Mrs f) (read_enc_Mrs f)
  | msrImm f => exact .of_arm (fun _ => rfl) rfl enc_read_MsrImm (cond_enc_MsrImm f) (read_enc_MsrImm f)
  | msrReg f => exact .of_arm (fun _ => rfl) rfl enc_read_MsrReg (cond_enc_MsrReg f) (read_enc_MsrReg f)
  | bx f => exact .of_arm (fun _ => rfl) rfl enc_read_Bx (cond_enc_Bx f) (read_enc_Bx f)
  | mul f => exact .of_arm (fun _ => rfl) rfl enc_read_Mul (cond_enc_Mul f) (read_enc_Mul f)
  | mla f => exact .of_arm (fun _ => rfl) rfl enc_read_Mla (cond_enc_Mla f) (read_enc_Mla f)
  | umull f | umlal f | smull f | smlal f =>
    exact .of_arm (fun _ => rfl) rfl (enc_read_Mull · _) (cond_enc_Mull _ f) (read_enc_Mull _ f)
  | swp f | swpb f => exact .of_arm (fun _ => rfl) rfl (enc_read_Swp · _) (cond_enc_Swp _ f) (read_enc_Swp _ f)
  | strhReg f | ldrhReg f | ldrsbReg f | ldrshReg f =>
    exact .of_arm (fun _ => rfl) rfl (enc_read_HwReg · _ _) (cond_enc_HwReg _ _ f) (read_enc_HwReg _ _ f)
  | strhImm f | ldrhImm f | ldrsbImm f | ldrshImm f =>
    exact .of_arm (fun _ => rfl) rfl (enc_read_HwImm · _ _) (cond_enc_HwImm _ _ f) (read_enc_HwImm _ _ f)
  | ldrImmPre f | ldrbImmPre f | strImmPre f | strbImmPre f =>
    exact .of_arm (fun _ => rfl) rfl (enc_read_LsImmPre · _ _) (cond_enc_LsImmPre _ _ f) (read_enc_LsImmPre _ _ f)
  | ldrImmPost f | ldrtImm f | ldrbImmPost f | ldrbtImm f | strImmPost f | strtImm f | strbImmPost f | strbtImm f =>
    exact .of_arm (fun _ => rfl) rfl (enc_read_LsImmPost · _ _ _) (cond_enc_LsImmPost _ _ _ f) (read_enc_LsImmPost _ _ _ f)
  | ldrRegPre f | ldrbRegPre f | strRegPre f | strbRegPre f =>
    exact .of_arm (fun _ => rfl) rfl (enc_read_LsRegPre · _ _) (cond_enc_LsRegPre _ _ f) (read_enc_LsRegPre _ _ f)
  | ldrRegPost f | ldrtReg f | ldrbRegPost f | ldrbtReg f | strRegPost f | strtReg f | strbRegPost f | strbtReg f =>
    exact .of_arm (fun _ => rfl) rfl (enc_read_LsRegPost · _ _ _) (cond_enc_LsRegPost _ _ _ f) (read_enc_LsRegPost _ _ _ f)
  | undefined f =>
    exact .of_arm (fun _ => rfl) rfl enc_read_UndefSpace (cond_enc_UndefSpace f) (read_enc_UndefSpace f)
  | ldm1 f | stm1 f | stm2 f =>
    exact .of_arm (fun _ => rfl) rfl (enc_read_Block · _ _) (cond_enc_Block _ _ f) (read_enc_Block _ _ f)
  | ldm2 f | ldm3 f =>
    exact .of_arm (fun _ => rfl) rfl (enc_read_BlockUser · _) (cond_enc_BlockUser _ f) (read_enc_BlockUser _ f)
  | b f | bl f => exact .of_arm (fun _ => rfl) rfl (enc_read_Branch · _) (cond_enc_Branch _ f) (read_enc_Branch _ f)
  | ldc f | stc f => exact .of_arm (fun _ => rfl) rfl (enc_read_CpLs · _) (cond_enc_CpLs _ f) (read_enc_CpLs _ f)
  | cdp f => exact .of_arm (fun _ => rfl) rfl enc_read_CpDp (cond_enc_CpDp f) (read_enc_CpDp f)
  | mrc f | mcr f => exact .of_arm (fun _ => rfl) rfl (enc_read_CpRt · _) (cond_enc_CpRt _ f) (read_enc_CpRt _ f)
  | swi f => exact .of_arm (fun _ => rfl) rfl enc_read_Swi (cond_enc_Swi f) (read_enc_Swi f)
  | tLslImm f | tLsrImm f | tAsrImm f => exact .of_thumb (fun _ => rfl) rfl rfl (enc_read_T1 · _) (read_enc_T1 _ f)
  | tAddReg f | tSubReg f => exact .of_thumb (fun _ => rfl) rfl rfl (enc_read_T2Reg · _) (read_enc_T2Reg _ f)
  | tAddImm3 f | tSubImm3 f => exact .of_thumb (fun _ => rfl) rfl rfl (enc_read_T2Imm · _) (read_enc_T2Imm _ f)
  | tMovImm f | tCmpImm f | tAddImm8 f | tSubImm8 f =>
    exact .of_thumb (fun _ => rfl) rfl rfl (enc_read_T3 · _) (read_enc_T3 _ f)
  | tAnd f | tEor f | tLslReg f | tLsrReg f | tAsrReg f | tAdc f | tSbc f | tRorReg f | tTst f | tNeg f | tCmp f
  | tCmn f | tOrr f | tMul f | tBic f | tMvn f =>
    exact .of_thumb (fun _ => rfl) rfl rfl (enc_read_T4 · _) (read_enc_T4 _ f)
  | tAddHi f | tCmpHi f | tMovHi f => exact .of_thumb (fun _ => rfl) rfl rfl (enc_read_T5 · _) (read_enc_T5 _ f)
  | tBx f => exact .of_thumb (fun _ => rfl) rfl rfl enc_read_T5Bx (read_enc_T5Bx f)
  | tLdrPc f | tStrSp f | tLdrSp f | tAddPc f | tAddSp f =>
    exact .of_thumb (fun _ => rfl) rfl rfl (enc_read_T6 · _) (read_enc_T6 _ f)
  | tStrReg f | tStrbReg f | tLdrReg f | tLdrbReg f | tStrhReg f | tLdrhReg f | tLdsb f | tLdsh f =>
    exact .of_thumb (fun _ => rfl) rfl rfl (enc_read_T7 · _) (read_enc_T7 _ f)
  | tStrImm f | tLdrImm f | tStrbImm f | tLdrbImm f | tStrhImm f | tLdrhImm f =>
    exact .of_thumb (fun _ => rfl) rfl rfl (enc_read_T9 · _) (read_enc_T9 _ f)
  | tAddToSp f | tSubFromSp f => exact .of_thumb (fun _ => rfl) rfl rfl (enc_read_T13 · _) (read_enc_T13 _ f)
  | tPush f | tPop f => exact .of_thumb (fun _ => rfl) rfl rfl (enc_read_T14 · _) (read_enc_T14 _ f)
  | tStmia f | tLdmia f => exact .of_thumb (fun _ => rfl) rfl rfl (enc_read_T15 · _) (read_enc_T15 _ f)
  | tBEq f | tBNe f | tBCs f | tBCc f | tBMi f | tBPl f | tBVs f | tBVc f | tBHi f | tBLs f | tBGe f | tBLt f
  | tBGt f | tBLe f | tSwi f => exact .of_thumb (fun _ => rfl) rfl rfl (enc_read_T16 · _) (read_enc_T16 _ f)
  | tB f | tBlHi f | tBlLo f => exact .of_thumb (fun _ => rfl) rfl rfl (enc_read_T18 · _) (read_enc_T18 _ f)

/-- The instruction an ARM row builds has the row's number. -/
theorem ctorIdx_of_armRow {k : Nat} {r : ArmRow} (hr : armRows[k]? = some r) (c : Cond) (w : Word) :
    (r.build c w).ctorIdx = k := by
  have hall : armRows.map (fun r => (r.build c w).ctorIdx) = List.range 106 := rfl
  have hk := congrArg (·[k]?) hall
  simp only [List.getElem?_map, hr, Option.map_some] at hk
  exact (List.getElem?_eq_some_iff.1 hk.symm).2.symm.trans (List.getElem_range _)

/-- The instruction a Thumb row builds has the row's number, after the 106 of the ARM rows. -/
theorem ctorIdx_of_thumbRow {k : Nat} {r : ThumbRow} (hr : thumbRows[k]? = some r) (h : Half) :
    (r.build h).ctorIdx = k + 106 := by
  have hall : thumbRows.map (fun r => (r.build h).ctorIdx) = List.range' 106 74 := rfl
  have hk := congrArg (·[k]?) hall
  simp only [List.getElem?_map, hr, Option.map_some] at hk
  simpa [Nat.add_comm] using (List.getElem?_eq_some_iff.1 hk.symm).2.symm

theorem armRows_exact {r : ArmRow} (hr : r ∈ armRows) : r.Exact := by
  obtain ⟨k, hk⟩ := List.mem_iff_getElem?.1 hr
  have hi := ctorIdx_of_armRow hk .al 0
  cases (r.build .al 0).hasRow with
  | arm r' _ _ hr' hx =>
    rw [hi, hk, Option.some.injEq] at hr'
    rwa [hr']
  | thumb _ j _ hj =>
    have hlt : k < 106 := (List.getElem?_eq_some_iff.1 hk).1
    omega

theorem thumbRows_exact {r : ThumbRow} (hr : r ∈ thumbRows) : r.Exact := by
  obtain ⟨k, hk⟩ := List.mem_iff_getElem?.1 hr
  have hi := ctorIdx_of_thumbRow hk 0
  cases (r.build 0).hasRow with
  | arm _ _ _ hr' =>
    have hlt : (r.build 0).ctorIdx < 106 := (List.getElem?_eq_some_iff.1 hr').1
    omega
  | thumb r' j _ hj hr' hx =>
    obtain rfl : k = j := by omega
    rw [hk, Option.some.injEq] at hr'
    rwa [hr']

/-- A row's fixed bits lie under its mask. -/
theorem armRows_value : ∀ r ∈ armRows, r.value &&& r.mask = r.value := by decide

theorem thumbRows_value : ∀ r ∈ thumbRows, r.value &&& r.mask = r.value := by decide

/-! ### Words that decode -/

/-- An ARM word that decodes to an instruction matches the row it is read through, and its condition is no 1111. -/
theorem decodeArm_instr {w : Word} {i : Instr} (h : decodeArm w = .instr i) :
    ∃ r ∈ armRows, ∃ c, w &&& r.mask = r.value ∧ field w 28 4 = condBits c ∧ r.build c w = i := by
  unfold decodeArm at h
  split at h
  · cases h
  · rename_i c hc
    split at h
    · rename_i r hr
      cases h
      exact ⟨r, List.mem_of_find?_eq_some hr, c, by simpa [armMatches] using List.find?_some hr,
        eq_condBits_of_condOfBits hc, rfl⟩
    · split at h <;> cases h

/-- The same for a halfword. -/
theorem decodeThumb_instr {h : Half} {i : Instr} (hi : decodeThumb h = .instr i) :
    ∃ r ∈ thumbRows, h &&& r.mask = r.value ∧ r.build h = i := by
  unfold decodeThumb at hi
  split at hi
  · rename_i r hr
    cases hi
    exact ⟨r, List.mem_of_find?_eq_some hr, by simpa [thumbMatches] using List.find?_some hr, rfl⟩
  · split at hi <;> cases hi

/-- Settles O2: the row a word decodes through is exact, and the word has the row's fixed bits. -/
theorem encodeDecode : Obligations.encodeDecode := by
  unfold Obligations.encodeDecode
  constructor
  · intro w i h
    obtain ⟨r, hr, c, hm, hc, rfl⟩ := decodeArm_instr h
    rw [armRows_exact hr hc, and_not_or_of_match hm]
  · intro h i hi
    obtain ⟨r, hr, hm, rfl⟩ := decodeThumb_instr hi
    rw [thumbRows_exact hr h, and_not_or_of_match hm]

/-- Settles O1: the instruction's row is exact, so its word has the row's fixed bits and decodes through that row, which reads
the instruction back. -/
theorem decodeEncode : Obligations.decodeEncode := by
  unfold Obligations.decodeEncode
  intro i
  cases i.hasRow with
  | arm r c w hr hx hw hc hb =>
    have hm := List.mem_of_getElem? hr
    have hself := hx hc
    rw [hb, hw, Code.arm.injEq] at hself
    rw [hw, decodeCode, decodeArm_row hm (match_of_and_not_or hself (armRows_value r hm)) hc, hb]
  | thumb r k h hk hr hx hh hb =>
    have hm := List.mem_of_getElem? hr
    have hself := hx h
    rw [hb, hh, Code.thumb.injEq] at hself
    rw [hh, decodeCode, decodeThumb_row hm (match_of_and_not_or hself (thumbRows_value r hm)), hb]

end Sys2Proof
end

section
/-! The boundary, the fetch, the dispatch and the retirement of a step (spec/40_fetch_decode_dispatch.md R160 to R186), and the
step of a word whose condition fails (R175). -/

namespace Sys2Proof

open Sys2Proof.Machine

/-! ### The word of an instruction, and the condition of a word -/

/-- The slot that holds an instruction's word decodes to it, in the instruction set the instruction belongs to. -/
theorem decodeWord_encode {i : Instr} {thumb : Bool} {w : Word}
    (h : (thumb = false ∧ encode i = .arm w) ∨ (thumb = true ∧ ∃ h : Half, encode i = .thumb h ∧ w = h.setWidth 32)) :
    decodeWord thumb w = .instr i := by
  have hd := decodeEncode i
  obtain ⟨rfl, he⟩ | ⟨rfl, h, he, rfl⟩ := h <;> rw [he] at hd
  · exact hd
  · have hf : field (h.setWidth 32 : Word) 0 16 = h := by simpa [place] using field_place_same (n := 32) h 0 (by decide)
    rw [decodeWord, if_pos rfl, hf]
    exact hd

/-- The condition that goes with what the decoder answers, if there is one. -/
def Decoded.cond : Decoded → Option Cond
  | .instr i => i.cond
  | .undefined c => c
  | .nearMatch c => c
  | .never => none

/-- The instruction an ARM row builds has the condition it is given. -/
theorem armRows_cond {r : ArmRow} (hr : r ∈ armRows) (c : Cond) (w : Word) : (r.build c w).cond = some c := by
  have hall : armRows.map (fun r => (r.build c w).cond) = List.replicate 106 (some c) := rfl
  exact List.eq_of_mem_replicate (hall ▸ List.mem_map_of_mem hr)

/-- An ARM word has the condition its top four bits name, whether or not it is defined. -/
theorem decodeArm_cond {w : Word} {c : Cond} (h : field w 28 4 = condBits c) : (decodeArm w).cond = some c := by
  unfold decodeArm
  rw [h, condOfBits_condBits]
  simp only []
  split
  · rename_i r hr
    exact armRows_cond (List.mem_of_find?_eq_some hr) c w
  · split <;> rfl

end Sys2Proof

namespace Sys2Proof.Machine

/-- An instruction whose condition fails is the plain advance (R175). -/
theorem exec_fails {i : Instr} {c : Cond} {s : State} (hi : i.cond = some c) (hc : conditionPassed c s.cpsr = false) :
    exec i s = advance s := (exec_guarded hi s).fails hc

/-- So is any word whose condition fails, defined or not. -/
theorem execDecoded_fails {d : Decoded} {c : Cond} {s : State} (hd : d.cond = some c)
    (hc : conditionPassed c s.cpsr = false) : execDecoded d s = advance s := by
  cases d with
  | instr i => exact exec_fails hd hc
  | undefined o =>
    cases hd
    show guarded c none _ s = _
    exact guarded_fail hc
  | nearMatch o =>
    cases hd
    show guarded c none (fun _ => .refused .nearMatch) s = _
    exact guarded_fail hc
  | never => cases hd

section
variable {s : State}

/-! ### The three ways through a boundary -/

theorem step_halted {r : HaltReason} (h : haltAsked s = some r) : step s = .next (halted r s) := by
  simp only [step, h]

theorem step_caught {e : Exc} (h : haltAsked s = none) (hp : pendingException (ensureSlots (clearHalt s)) = some e)
    (hc : caught e (ensureSlots (clearHalt s)) = true) : step s = .next (halted (.caught e) s) := by
  simp only [step, h, boundary, hp, hc, if_true]

theorem step_instruction (h : haltAsked s = none) (hp : pendingException (ensureSlots (clearHalt s)) = none) :
    step s = instructionStep (ensureSlots (clearHalt s)) := by
  simp only [step, h, boundary, hp]

/-! ### What precedes the instruction -/

/-- Filling the slots moves nothing that a fetch cannot change. -/
theorem ensureSlots_frame (s : State) : FetchFrame s (ensureSlots s) := by
  unfold ensureSlots
  split
  · exact .refl s
  · exact refill_frame s

theorem ensureSlots_valid (s : State) : (ensureSlots s).pipe.valid = true := by
  unfold ensureSlots
  split
  · assumption
  · exact (refill_pipe s).1

theorem ensureSlots_of_valid (h : s.pipe.valid = true) : ensureSlots s = s := if_pos h

theorem ensureSlots_ctr (s : State) : (ensureSlots s).ctr = if s.pipe.valid then s.ctr else charge 1 1 0 0 s.ctr := by
  unfold ensureSlots
  split
  · rfl
  · exact refill_ctr s

/-- The step's own fetch is one cycle, of class N or S (R165). -/
theorem countAccess_one (c : Cls) (s : State) :
    countAccess c 1 s = spend (if c = .s then 0 else 1) (if c = .s then 1 else 0) 0 0 s := by
  cases c <;> rfl

/-- Nothing that precedes the instruction moves the pc, a register, a status or what a handler holds. -/
theorem prepare_core (s : State) : (prepare s).pc = s.pc ∧ (prepare s).regs = s.regs ∧ (prepare s).cpsr = s.cpsr ∧
    (prepare s).spsr = s.spsr ∧ (prepare s).acc = s.acc ∧ (prepare s).inted = s.inted ∧
    (prepare s).lastInted = s.lastInted ∧ (prepare s).coproc = s.coproc ∧ (prepare s).params = s.params ∧
    (prepare s).freeCount = s.freeCount := by
  have h := prepare_frame s
  exact ⟨h.pc, h.regs, h.cpsr, h.spsr, h.acc, h.inted, h.lastInted, h.coproc, h.params, h.freeCount⟩

/-- A debug hook whose script is used up and that makes no stop asks for nothing (spec/60_exceptions.md R512). -/
theorem debugHook_silent (pc w : Word) (hh : s.collab.hook = []) (hb : s.collab.breakpoints = []) : debugHook pc w s = s := by
  have hs : hookStops pc w s = false := by simp [hookStops, hh, hb]
  have hc : { s.collab with hook := s.collab.hook.tail } = s.collab := by rw [hh, List.tail_nil, ← hh]
  rw [debugHook, hs, hc, Bool.or_false]

/-- With a debug hook that asks for nothing and a quiet fetch, all that precedes the instruction is the count of the budget, the
fetch's cycle and the move of the slots (R164, R166). -/
theorem prepare_silent (hh : s.collab.hook = []) (hb : s.collab.breakpoints = [])
    (hq : QuietAt .fetch (fetchSize s) (readPc s) s) : prepare s = { s with
      fault := clean s.fault
      dbg := { s.dbg with stepBudget := s.dbg.stepBudget.map fun n => n - 1 }
      ctr := charge (if fetchClass (readPc s) s.pipe.lastFetch = .s then 0 else 1)
        (if fetchClass (readPc s) s.pipe.lastFetch = .s then 1 else 0) 0 0 s.ctr
      pipe := {
        decoded := s.pipe.loaded
        loaded := { word := portLoad s.mem (fetchSize s) (readPc s), pabort := false }
        valid := s.pipe.valid
        lastFetch := { valid := true, addr := readPc s, size := isz s } } } := by
  have hq : QuietAt .fetch (fetchSize (beforeFetch s)) (readPc s) (beforeFetch s) := hq
  have hs : beforeFetch s = { spendBudget s with pipe := { s.pipe with decoded := s.pipe.loaded } } := by
    rw [beforeFetch, debugHook_silent _ _ (s := spendBudget s) hh hb]; rfl
  have hf := fetch_quiet hq
  rw [countAccess_one, hs] at hf
  rw [prepare_eq, hs, hf]
  rfl

/-! ### The retirement -/

/-- A pass at which no event is due does nothing (spec/60_exceptions.md R501). -/
theorem eventPass_idle (h : ∀ n ∈ s.sched.events, s.ctr.now < n.trigger) : eventPass s = s := by
  have hd : dueHandles s = [] := by
    rw [dueHandles, List.map_eq_nil_iff, List.filter_eq_nil_iff]
    intro n hn
    simpa using h n hn
  rw [eventPass, hd, List.foldl_nil]

/-- So the retirement is the clock's advance alone when no event is due after it (R185). -/
theorem retire_idle (h : ∀ n ∈ s.sched.events, s.ctr.now + s.ctr.cost < n.trigger) : retire s = advanceClock s :=
  eventPass_idle h

/-- The counters after the retirement, whatever the callbacks do (R185, spec/60_exceptions.md R500). -/
theorem retire_ctr (s : State) : (retire s).ctr =
    { s.ctr with numInstrs := s.ctr.numInstrs + 1, now := s.ctr.now + s.ctr.cost, cost := 0 } :=
  (eventPass_frame (advanceClock s)).ctr

end

/-- The step of an ARM word whose condition fails is a plain advance between what precedes an instruction and what follows it. -/
theorem step_fails {s : State} {c : Cond} (hh : haltAsked s = none) (hv : s.pipe.valid = true) (hp : pendingException s = none)
    (ht : s.cpsr.t = false) (hw : field s.pipe.decoded.word 28 4 = condBits c) (hc : conditionPassed c s.cpsr = false)
    (ha : CanAdvance s) : step s = .next (retire (forward (prepare (clearHalt s)))) := by
  have he : ensureSlots (clearHalt s) = clearHalt s := ensureSlots_of_valid hv
  obtain ⟨hpc, -, hcpsr, -⟩ := prepare_core (clearHalt s)
  rw [clearHalt_pc] at hpc
  rw [clearHalt_cpsr] at hcpsr
  have hd : (decodeWord (clearHalt s).cpsr.t (clearHalt s).pipe.decoded.word).cond = some c := by
    rw [clearHalt_cpsr, ht]; exact decodeArm_cond hw
  have hx := execDecoded_fails (s := prepare (clearHalt s)) hd (by rwa [hcpsr])
  rw [advance_next (ha.congr hpc (by rw [hcpsr]))] at hx
  rw [step_instruction hh (by rw [he]; exact hp), he, instructionStep, hx]

/-- Settles O7: the condition comes before everything else (`exec_guarded`), for a word that is no instruction too, and around
the plain advance stand a quiet fetch, a silent hook and an idle event pass. -/
theorem conditionFailed : Obligations.conditionFailed := by
  refine ⟨fun i c s hi hc ha => (exec_fails hi hc).trans (advance_next ha), ?_⟩
  intro s c hh hv hp ht hw hc ha hq hhook hbreak hev
  have hz : isz s = 4#32 := by simp [isz, ht]
  have hr : readPc (clearHalt s) = s.pc + 8#32 := by
    show s.pc + (isz s + isz s) = _
    rw [hz]; rfl
  have hf : fetchSize (clearHalt s) = .word := by simp [fetchSize, ht]
  rw [step_fails hh hv hp ht hw hc ha, prepare_silent (s := clearHalt s) hhook hbreak (by rw [hf, hr]; exact hq), hf, hr,
    retire_idle]
  · cases h : fetchClass (s.pc + 8#32) s.pipe.lastFetch <;> simp [advanceClock, forward, clearHalt, isz, ht, h, charge, hv]
  · intro n hn
    have hev := hev n hn
    cases h : fetchClass (s.pc + 8#32) s.pipe.lastFetch <;> simpa [forward, charge, h, Nat.add_assoc] using hev

/-- Settles O4: the decoder answers the instruction whose word the slot holds (`decodeEncode`), and neither the refill nor the
fetch changes what a fetch cannot change (`FetchFrame`). -/
theorem stepRunsDecoded : Obligations.stepRunsDecoded := by
  intro s i hh s1 p core hp hw
  have hs : s1 = ensureSlots (clearHalt s) := rfl
  have f1 : FetchFrame (clearHalt s) s1 := ensureSlots_frame _
  have f2 : FetchFrame (beforeFetch s1) p := prepare_frame s1
  have hd : decodeWord s1.cpsr.t s1.pipe.decoded.word = .instr i := decodeWord_encode (by rw [f1.cpsr]; exact hw)
  have hr : readPc s1 = s.pc + (isz s + isz s) := by simp only [readPc, isz, f1.pc, f1.cpsr, clearHalt_pc, clearHalt_cpsr]
  have hf : fetchSize s1 = fetchSize s := by simp only [fetchSize, f1.cpsr, clearHalt_cpsr]
  have hctr : p.ctr = charge _ _ 0 0 s1.ctr := (prepare_ctr s1).trans (congrArg State.ctr (countAccess_one _ s1))
  have hpipe : p.pipe = _ := prepare_pipe s1
  have h1 : core s1 = core s := by
    simp only [core, f1.pc, f1.regs, f1.cpsr, f1.spsr, f1.acc, f1.inted, f1.lastInted, f1.coproc, f1.params, f1.freeCount]
    rfl
  have h2 : core p = core s1 := by
    obtain ⟨hpc, hregs, hcpsr, hspsr, hacc, hinted, hlast, hcoproc, hparams, hfree⟩ := prepare_core s1
    simp only [core, p, hpc, hregs, hcpsr, hspsr, hacc, hinted, hlast, hcoproc, hparams, hfree]
  obtain ⟨hI, hC, hN, hT⟩ : p.ctr.numI = s.ctr.numI ∧ p.ctr.numC = s.ctr.numC ∧ p.ctr.numInstrs = s.ctr.numInstrs ∧
      p.ctr.now = s.ctr.now := by
    simp only [hctr, charge, hs, ensureSlots_ctr]
    split <;> exact ⟨rfl, rfl, rfl, rfl⟩
  refine ⟨?_, h1, h2.trans h1, ensureSlots_ctr (clearHalt s), ?_, ?_, hI, hC, hN, hT, f2.stepBudget.trans ?_,
    f2.catchMask.trans f1.catchMask, ?_, ?_, fun hq => ?_⟩
  · rw [step_instruction hh hp, instructionStep, ← hs, hd]; rfl
  · rw [hctr]; simp only [charge]; split <;> rfl
  · rw [hctr]; simp only [charge]; split <;> omega
  · exact congrArg (Option.map fun n => n - 1) f1.stepBudget
  · rw [hpipe]; exact ensureSlots_valid (clearHalt s)
  · rw [hpipe]
  · rw [← hf, ← hr] at hq ⊢
    exact prepare_quiet hq

end Sys2Proof.Machine
end

section
/-! The halts (spec/40_fetch_decode_dispatch.md R161; spec/60_exceptions.md R510, R511). -/

namespace Sys2Proof.Machine

theorem trap_caught {e : Exc} {s : State} (h : caught e s = true) : trap e s = .next (caughtInline e s) := by
  rw [trap, if_pos h]

/-- A coprocessor instruction that no handler takes raises Undefined (spec/47_arm_coprocessor_swi_undefined.md R322), which the
catch mask can stop. -/
theorem withHandler_caught {cp : BitVec 4} {call : HandlerCall} {s : State} (k : CoprocAnswer → Out)
    (hc : caught .undefined s = true) :
    (s.coproc[cp.toFin] = .unbound → withHandler cp call k s = .next (caughtInline .undefined s)) ∧
    ∀ h, s.coproc[cp.toFin] = .bound h → (callHandler cp h call s).result = .notHandled →
      withHandler cp call k s = .next (caughtInline .undefined (callHandler cp h call s).state) := by
  refine ⟨fun hu => ?_, fun h hb hr => ?_⟩
  · simp only [withHandler, hu, raise_caught hc]
  · have hc : caught .undefined (callHandler cp h call s).state = true := by
      rwa [caught, (callHandler_frame cp h call s).catchMask]
    simp only [withHandler, hb, hr, raise_caught hc]

/-- Settles O38: the halts before the boundary and at it say so of themselves (`step_halted`, `step_caught`); inside an
instruction every exception goes through `trap` or `withHandler`. -/
theorem halts : Obligations.halts := by
  unfold Obligations.halts
  intro stopped
  refine ⟨fun s h => step_halted (by simp [haltAsked, h]), fun s h h' => step_halted (by simp [haltAsked, h, h']),
    fun s e hh hm hp => step_caught hh hp ?_, fun f s hc hm => ?_, fun f s hm => trap_caught (e := .swi) hm,
    fun f s hc hm => ?_, fun c s hc hm => ⟨?_, trap_caught (e := .undefined) hm⟩, fun i w c cp call s hi hw hc hm => ?_⟩
  · rw [caught, (ensureSlots_frame _).catchMask]; exact hm
  · exact (guarded_pass hc rfl).trans (trap_caught (e := .swi) hm)
  · exact (guarded_pass hc rfl).trans (trap_caught (e := .undefined) hm)
  · exact (guarded_pass hc rfl).trans (trap_caught (e := .undefined) hm)
  · suffices h : ∃ k, exec i s = withHandler cp call k s by
      obtain ⟨k, hk⟩ := h
      rw [hk]
      exact withHandler_caught k hm
    obtain ⟨f, rfl, rfl, rfl, rfl⟩ | ⟨f, rfl, rfl, rfl, rfl⟩ | ⟨f, rfl, rfl, rfl, rfl⟩ | ⟨f, rfl, rfl, rfl, rfl⟩ |
      ⟨f, rfl, rfl, rfl, rfl⟩ := hi <;> cases hw
    · exact ⟨_, (exec_cdp f s).trans (guarded_pass hc rfl)⟩
    · exact ⟨_, (exec_mrc f s).trans (guarded_pass hc rfl)⟩
    · exact ⟨_, (exec_mcr f s).trans (guarded_pass hc rfl)⟩
    · exact ⟨_, (exec_ldc f s).trans (guarded_pass hc rfl)⟩
    · exact ⟨_, (exec_stc f s).trans (guarded_pass hc rfl)⟩

end Sys2Proof.Machine
end

section
/-! The counters and the clock through a step (spec/40_fetch_decode_dispatch.md R163, R185, R186; spec/60_exceptions.md R500). -/

namespace Sys2Proof.Machine

/-- A refill only counts its two fetches. -/
theorem refill_charged (s : State) : Charged s.ctr (refill s).ctr := ⟨1, 1, 0, 0, refill_ctr s⟩

theorem branchTo_charged (v : Word) (s : State) : Charged s.ctr (branchTo v s).ctr := refill_charged _

/-- The entry of an exception is the refill's two cycles (R170, R163). -/
theorem enter_ctr (inline : Bool) (x : Exc) (s : State) : (enter inline x s).ctr = charge 1 1 0 0 s.ctr := by
  cases x <;> exact refill_ctr _

/-- However an instruction ends, it has only counted cycles. -/
theorem Ends.charged {fl : Bool} {us : List RegNum} {s t : State} (e : Ends fl us s t) : Charged s.ctr t.ctr := by
  cases e with
  | next u w e => subst e; exact w.ctr
  | branch v u w e => subst e; exact w.ctr.trans (branchTo_charged v u)
  | exchange v b u w e => subst e; exact w.ctr.trans (branchTo_charged v { u with cpsr := { u.cpsr with t := b } })
  | restore v p u w _ _ _ e => subst e; exact w.ctr.trans (branchTo_charged v { u with cpsr := p })
  | status _ _ p u w _ _ _ e =>
    subst e
    split
    · exact w.ctr
    · exact w.ctr.trans (branchTo_charged _ { u with cpsr := p })
  | entered x u w e => subst e; exact w.ctr.trans ⟨1, 1, 0, 0, enter_ctr true x u⟩
  | caught x u w e => subst e; exact w.ctr

/-- Settles O58: an instruction step counts its fetch and the cycles of its instruction (`Ends.charged`), and then retires; an
exception step counts its refill. -/
theorem retirement : Obligations.retirement := by
  intro s t hh hv h
  obtain ⟨r, hr, -⟩ | ⟨-, hb⟩ := step_cases h
  · rw [hh] at hr; cases hr
  have he : ensureSlots (clearHalt s) = clearHalt s := ensureSlots_of_valid hv
  have hb := boundary_cases hb
  simp only [he] at hb
  have hpend : pendingException (clearHalt s) = pendingException s := rfl
  rw [hpend] at hb
  obtain ⟨e, hp, hc, rfl⟩ | ⟨e, hp, hc, rfl⟩ | ⟨hp, u, hu, rfl⟩ := hb <;> rw [hp]
  · refine ⟨nofun, fun e' he' hc' => ?_, Nat.le_refl _⟩
    cases he'
    exact absurd (hc.symm.trans hc') nofun
  · rw [enter_ctr]
    exact ⟨nofun, fun _ _ _ => rfl, Nat.le_refl _⟩
  · have hx : Charged (prepare (clearHalt s)).ctr u.ctr := by
      rcases execDecoded_ends hu with ⟨i, -, e⟩ | e <;> exact e.charged
    obtain ⟨n, k, i, c, hx⟩ := hx
    rw [prepare_ctr, countAccess_one] at hx
    rw [retire_ctr, hx]
    refine ⟨fun _ => ⟨rfl, rfl, rfl, ?_⟩, nofun, Nat.le_add_right _ _⟩
    simp only [charge, spend, clearHalt_ctr]
    split <;> omega

end Sys2Proof.Machine
end

section
/-! The condition table after a comparison (spec/41_shifter_alu_flags.md R220). -/

namespace Sys2Proof.Machine

/-- The table of R220, in the flags. -/
theorem conditionPassed_iff (p : Psr) :
    (conditionPassed .eq p = true ↔ p.z = true) ∧ (conditionPassed .ne p = true ↔ p.z = false) ∧
    (conditionPassed .cs p = true ↔ p.c = true) ∧ (conditionPassed .cc p = true ↔ p.c = false) ∧
    (conditionPassed .mi p = true ↔ p.n = true) ∧ (conditionPassed .pl p = true ↔ p.n = false) ∧
    (conditionPassed .vs p = true ↔ p.v = true) ∧ (conditionPassed .vc p = true ↔ p.v = false) ∧
    (conditionPassed .hi p = true ↔ p.c = true ∧ p.z = false) ∧
    (conditionPassed .ls p = true ↔ p.c = false ∨ p.z = true) ∧
    (conditionPassed .ge p = true ↔ p.n = p.v) ∧ (conditionPassed .lt p = true ↔ p.n ≠ p.v) ∧
    (conditionPassed .gt p = true ↔ p.z = false ∧ p.n = p.v) ∧
    (conditionPassed .le p = true ↔ p.z = true ∨ p.n ≠ p.v) ∧ conditionPassed .al p = true := by
  simp [conditionPassed]

/-- The exact signed difference is negative exactly when N and V of `a - b` differ: the wrapped result has the wrong sign
exactly when no word holds the difference. -/
theorem msb_sub_ne_overflows (a b : Word) : (a - b).msb ≠ overflows (a.toInt - b.toInt) ↔ a.toInt < b.toInt := by
  have ha := a.toInt_lt
  have ha' := a.le_toInt
  have hb := b.toInt_lt
  have hb' := b.le_toInt
  rw [BitVec.msb_eq_toInt, overflows, Ne, decide_eq_decide, BitVec.toInt_sub, Int.bmod_def]
  omega

/-- Settles O6: each condition is its row of the table (`conditionPassed_iff`) over Z as equality, C as the unsigned order and
N against V as the signed order (`msb_sub_ne_overflows`). -/
theorem conditions : Obligations.conditions := by
  unfold Obligations.conditions
  refine ⟨conditionPassed_iff, ?_⟩
  intro a b s p
  have hz : p.z = true ↔ a = b := decide_eq_true_iff.trans sub_eq_zero
  have hc : p.c = true ↔ b.toNat ≤ a.toNat := decide_eq_true_iff
  have hnv : p.n = p.v ↔ b.toInt ≤ a.toInt := not_iff_not.mp ((msb_sub_ne_overflows a b).trans not_le.symm)
  have hnat : a = b ↔ a.toNat = b.toNat := BitVec.toNat_eq
  have hint : a = b ↔ a.toInt = b.toInt := BitVec.toInt_inj.symm
  obtain ⟨eq, ne, cs, cc, -, -, -, -, hi, ls, ge, lt, gt, le, -⟩ := conditionPassed_iff p
  simp only [← Bool.not_eq_true, hz, hc, Ne, hnv] at eq ne cs cc hi ls ge lt gt le
  refine ⟨eq, ne, cs, cc.trans not_le, hi.trans ?_, ls.trans ?_, ge, lt.trans not_le, gt.trans ?_, le.trans ?_⟩
  · rw [hnat]; omega
  · rw [hnat]; omega
  · rw [hint]; omega
  · rw [hint]; omega

end Sys2Proof.Machine
end

section
/-! The shifter as shifts of a 33-bit value (spec/41_shifter_alu_flags.md R200 to R202). -/

namespace Sys2Proof.Machine

section
variable (n : Nat) (v : Word) (c : Bool)

/-- LSL by a register: the carry is the last bit shifted out at the top, 0 once the amount passes 32. -/
theorem shiftReg_lsl : shiftReg .lsl n v c =
    { value := v <<< n, carry := if n = 0 then c else decide (n ≤ 32) && v.getLsbD (32 - n) } := by
  simp only [shiftReg]
  split_ifs with h0 h1 h2
  · simp [h0]
  · simp [show n ≤ 32 by omega]
  · simp [h2]
  · simp [BitVec.shiftLeft_eq_zero (show 32 ≤ n by omega), show ¬ n ≤ 32 by omega]

/-- LSR by a register: the carry is the last bit shifted out at the bottom. -/
theorem shiftReg_lsr : shiftReg .lsr n v c =
    { value := v >>> n, carry := if n = 0 then c else v.getLsbD (n - 1) } := by
  simp only [shiftReg]
  split_ifs with h0 h1 h2
  · simp [h0]
  · rfl
  · simp [h2, BitVec.ushiftRight_eq_zero]
  · simp [BitVec.ushiftRight_eq_zero (show 32 ≤ n by omega), BitVec.getLsbD_of_ge v (n - 1) (by omega)]

/-- An arithmetic shift, bit by bit: past the top the sign is read. -/
theorem getLsbD_sshiftRight_min {w : Nat} (x : BitVec w) (n : Nat) {k : Nat} (hk : k < w) :
    (x.sshiftRight n).getLsbD k = x.getLsbD (min (n + k) (w - 1)) := by
  rw [BitVec.getLsbD_sshiftRight, BitVec.msb_eq_getLsbD_last, decide_eq_false (by omega), Bool.not_false, Bool.true_and]
  split <;> congr 1 <;> omega

/-- 32 copies of the sign are what an arithmetic shift by 32 or more leaves. -/
theorem signFill_eq_sshiftRight {n : Nat} (h : 32 ≤ n) (v : Word) : signFill v = v.sshiftRight n := by
  refine BitVec.eq_of_getLsbD_eq fun k hk => ?_
  rw [getLsbD_sshiftRight_min v n hk, Nat.min_eq_right (by omega), signFill]
  cases v.getLsbD 31
  · exact BitVec.getLsbD_zero
  · exact BitVec.getLsbD_allOnes.trans (decide_eq_true hk)

/-- ASR by a register: from 32 on every bit, the carry too, is the sign. -/
theorem shiftReg_asr : shiftReg .asr n v c =
    { value := v.sshiftRight n, carry := if n = 0 then c else v.getLsbD (min (n - 1) 31) } := by
  simp only [shiftReg]
  split_ifs with h0 h1
  · simp [h0]
  · rw [Nat.min_eq_left (by omega)]
  · rw [Nat.min_eq_right (by omega), signFill_eq_sshiftRight (n := n) (by omega)]

/-- A rotation by whole turns. -/
theorem rotateRight_of_mod_eq_zero {n : Nat} (h : n % 32 = 0) (v : Word) : v.rotateRight n = v := by
  refine BitVec.eq_of_getLsbD_eq fun k hk => ?_
  rw [getLsbD_rotateRight_mod v n hk, show (k + n) % 32 = k by omega]

/-- ROR by a register: the carry is the bit that has come to the top. -/
theorem shiftReg_ror : shiftReg .ror n v c =
    { value := v.rotateRight n, carry := if n = 0 then c else v.getLsbD ((n + 31) % 32) } := by
  simp only [shiftReg]
  split_ifs with h0 h1
  · rw [rotateRight_of_mod_eq_zero (by omega)]
  · rw [rotateRight_of_mod_eq_zero h1, show (n + 31) % 32 = 31 by omega]
  · rw [BitVec.rotateRight_mod_eq_rotateRight, show (n + 31) % 32 = n % 32 - 1 by omega]

/-- LSL of the value with the carry above it. -/
theorem shiftReg_lsl_append : BitVec.ofBool (shiftReg .lsl n v c).carry ++ (shiftReg .lsl n v c).value =
    (BitVec.ofBool c ++ v) <<< n := by
  rw [shiftReg_lsl]
  obtain rfl | h0 := Nat.eq_zero_or_pos n
  · simp
  refine BitVec.eq_of_getLsbD_eq fun k hk => ?_
  rw [BitVec.getLsbD_shiftLeft, BitVec.ofBool_append, BitVec.ofBool_append, BitVec.getLsbD_cast, BitVec.getLsbD_cast,
    BitVec.getLsbD_cons, BitVec.getLsbD_cons, if_neg h0.ne', if_neg (show k - n ≠ 32 by omega), decide_eq_true hk]
  split
  · subst k; simp [← decide_not]
  · rw [BitVec.getLsbD_shiftLeft, decide_eq_true (show k < 32 by omega)]

/-- LSR of the value with the carry below it. -/
theorem shiftReg_lsr_append : (shiftReg .lsr n v c).value ++ BitVec.ofBool (shiftReg .lsr n v c).carry =
    (v ++ BitVec.ofBool c) >>> n := by
  rw [shiftReg_lsr, BitVec.append_ofBool, BitVec.append_ofBool]
  obtain rfl | h0 := Nat.eq_zero_or_pos n
  · simp
  refine BitVec.eq_of_getLsbD_eq fun k hk => ?_
  rw [BitVec.getLsbD_ushiftRight, BitVec.getLsbD_concat, BitVec.getLsbD_concat, if_neg h0.ne', if_neg (show n + k ≠ 0 by omega)]
  split
  · rw [‹k = 0›, Nat.add_zero]
  · rw [BitVec.getLsbD_ushiftRight, Nat.add_sub_assoc (by omega)]

/-- ASR of the value with the carry below it. -/
theorem shiftReg_asr_append : (shiftReg .asr n v c).value ++ BitVec.ofBool (shiftReg .asr n v c).carry =
    (v ++ BitVec.ofBool c).sshiftRight n := by
  rw [shiftReg_asr, BitVec.append_ofBool, BitVec.append_ofBool]
  obtain rfl | h0 := Nat.eq_zero_or_pos n
  · simp
  refine BitVec.eq_of_getLsbD_eq fun k hk => ?_
  rw [getLsbD_sshiftRight_min _ n hk, BitVec.getLsbD_concat, BitVec.getLsbD_concat, if_neg h0.ne',
    if_neg (show min (n + k) (32 + 1 - 1) ≠ 0 by omega)]
  split
  · exact congrArg v.getLsbD (by omega)
  · exact (getLsbD_sshiftRight_min v n (by omega)).trans (congrArg v.getLsbD (by omega))

/-- RRX, bit by bit: the carry comes in at the top. -/
theorem getLsbD_rrx_value {k : Nat} (hk : k < 32) :
    (rrx v c).value.getLsbD k = if k = 31 then c else v.getLsbD (k + 1) := by
  simp only [rrx, BitVec.getLsbD_or, BitVec.getLsbD_shiftLeft, BitVec.getLsbD_ushiftRight, BitVec.getLsbD_setWidth,
    BitVec.getLsbD_ofBool, Nat.add_comm 1 k]
  split
  · simp [*]
  · simp [show k < 31 by omega]

/-- RRX is the rotation by one of the value with the carry below it. -/
theorem rrx_append : (rrx v c).value ++ BitVec.ofBool (rrx v c).carry = (v ++ BitVec.ofBool c).rotateRight 1 := by
  rw [BitVec.append_ofBool, BitVec.append_ofBool]
  refine BitVec.eq_of_getLsbD_eq fun k hk => ?_
  rw [BitVec.getLsbD_concat, BitVec.getLsbD_rotateRight]
  obtain rfl | h0 := Nat.eq_zero_or_pos k
  · simp [rrx]
  rw [if_neg h0.ne', getLsbD_rrx_value v c (by omega)]
  obtain hk | rfl : k < 32 ∨ k = 32 := by omega
  · simp [hk, show k - 1 ≠ 31 by omega, show k - 1 + 1 = k by omega, Nat.add_comm 1 k]
  · simp

/-- Within 1 to 31 the immediate and the register shifts agree. -/
theorem shiftImm_eq_shiftReg (ty : ShiftType) {n : Nat} (h0 : 0 < n) (h : n < 32) :
    shiftImm ty n v c = shiftReg ty n v c := by
  cases ty <;> simp [shiftImm, shiftReg, h0.ne', h, Nat.mod_eq_of_lt h]

end

/-- The rotated immediate, bit by bit. -/
theorem getLsbD_rotatedImm (rot : BitVec 4) (imm8 : BitVec 8) {k : Nat} (hk : k < 32) :
    (rotatedImm rot imm8).getLsbD k =
      (decide ((k + 2 * rot.toNat) % 32 < 8) && imm8.getLsbD ((k + 2 * rot.toNat) % 32)) := by
  rw [rotatedImm, getLsbD_rotateRight_mod _ _ hk, BitVec.getLsbD_setWidth, decide_eq_true (by omega), Bool.true_and]
  by_cases h : (k + 2 * rot.toNat) % 32 < 8
  · rw [decide_eq_true h, Bool.true_and]
  · rw [decide_eq_false h, Bool.false_and, BitVec.getLsbD_of_ge _ _ (by omega)]

/-- Settles O9: the rotated immediate bit by bit, the register amounts as shifts of the 33-bit value (`shiftReg_lsl_append` and
its fellows), and the immediate amounts, 0 apart, as the register ones. -/
theorem shifter : Obligations.shifter := by
  unfold Obligations.shifter
  refine ⟨fun rot imm8 _ _ hk => getLsbD_rotatedImm rot imm8 hk, fun rot imm8 c => ?_, fun n v c _ => ?_,
    fun ty n v c h0 h => shiftImm_eq_shiftReg v c ty h0 h, fun v c => ⟨rfl, rfl, rfl, rrx_append v c⟩⟩
  · exact if_congr BitVec.toNat_eq rfl (BitVec.msb_eq_getLsbD_last _).symm
  · rw [shiftReg_ror]
    exact ⟨shiftReg_lsl_append n v c, shiftReg_lsr_append n v c, shiftReg_asr_append n v c,
      fun k hk => getLsbD_rotateRight_mod v n hk, rfl⟩

end Sys2Proof.Machine
end

section
/-! Data processing (spec/42_arm_data_processing.md R230 to R246): every row of the tables runs one operation of the ALU in its
three formats, and what the operation gives goes to a general register, to the pc, or to the flags alone. -/

namespace Sys2Proof.Machine

/-! ### Where a result goes -/

/-- The state after a result that goes to a general register, and to the flags too when `on` says so (R230). -/
def withResult (on : Bool) (rd : RegNum) (r : AluOut) (s : State) : State :=
  forward (withFlags on r.value r.c r.v (writeReg s rd r.value))

/-- The state after a comparison (R230). -/
def compared (r : AluOut) (s : State) : State := forward (withFlags true r.value r.c r.v s)

section
variable {on : Bool} {rd : RegNum} {r : AluOut} {s : State} {row : Cycles}

theorem CanAdvance.charges (h : CanAdvance s) (row : Cycles) : CanAdvance (charges row s) :=
  h.congr (charges_pc _ _) (by rw [charges_cpsr])

theorem advance_setFlags (h : CanAdvance s) : advance (setFlags r s) = .next (compared r s) := by
  rw [setFlags_eq]
  exact advance_next (h.congr rfl rfl)

theorem writeResult_reg (h : CanAdvance s) (hd : rd ≠ 15#4) : writeResult on rd r s = .next (withResult on rd r s) := by
  have hw : CanAdvance (writeReg s rd r.value) := h.congr (writeReg_pc ..) (by rw [writeReg_cpsr])
  rw [writeResult, if_neg hd]
  cases on with
  | true => exact advance_setFlags hw
  | false => exact advance_next hw

theorem exceptionReturn_eq_toPc (v : Word) (s : State) : exceptionReturn v s = toPc true v s := by
  unfold exceptionReturn spsrOf toPc
  cases s.cpsr.m.hasSpsr with
  | false => rfl
  | true =>
    simp only [if_true]
    cases psrOfWord s.spsr[s.cpsr.m.bank] <;> rfl

theorem writeResult_pc (hd : rd = 15#4) : writeResult on rd r s = toPc on r.value s := by
  rw [writeResult, if_pos hd]
  cases on with
  | true => exact exceptionReturn_eq_toPc _ _
  | false => rfl

end

/-! ### Operations with a destination -/

/-- The three formats of an instruction with two operands run one operation of the ALU. -/
structure RunsData (a1 : A1 → Instr) (a2 : A2 → Instr) (a3 : A3 → Instr) (op : AluOp) : Prop where
  execA1 : ∀ f s, exec (a1 f) s = dataA1 op f s
  execA2 : ∀ f s, exec (a2 f) s = dataA2 op f s
  execA3 : ∀ f s, exec (a3 f) s = dataA3 op f s
  check : ∀ f, (a3 f).restriction = f.check

/-- The same for MOV and MVN, which read no first operand. -/
structure RunsMove (a1 : A1Mov → Instr) (a2 : A2Mov → Instr) (a3 : A3Mov → Instr) (op : AluOp) : Prop where
  execA1 : ∀ f s, exec (a1 f) s = moveA1 op f s
  execA2 : ∀ f s, exec (a2 f) s = moveA2 op f s
  execA3 : ∀ f s, exec (a3 f) s = moveA3 op f s
  check : ∀ f, (a3 f).restriction = f.check

/-- The same for the instructions that write flags alone. -/
structure RunsCompare (a1 : A1Cmp → Instr) (a2 : A2Cmp → Instr) (a3 : A3Cmp → Instr) (op : AluOp) : Prop where
  execA1 : ∀ f s, exec (a1 f) s = compareA1 op f s
  execA2 : ∀ f s, exec (a2 f) s = compareA2 op f s
  execA3 : ∀ f s, exec (a3 f) s = compareA3 op f s
  check : ∀ f, (a3 f).restriction = f.check

/-- Format A3 refuses r15 as destination (spec/41_shifter_alu_flags.md R202). -/
theorem A3_rd_ne_pc {f : A3} (h : f.check = none) : f.rd ≠ 15#4 := by
  intro hd
  simp [A3.check, firstOf, isPc, hd] at h

theorem A3Mov_rd_ne_pc {f : A3Mov} (h : f.check = none) : f.rd ≠ 15#4 := by
  intro hd
  simp [A3Mov.check, firstOf, isPc, hd] at h

section
variable {a1 : A1 → Instr} {a2 : A2 → Instr} {a3 : A3 → Instr} {op : AluOp} {s : State}

theorem RunsData.reg (h : RunsData a1 a2 a3 op) (hs : CanAdvance s) :
    (∀ f : A1, conditionPassed f.cond s.cpsr = true → f.rd ≠ 15#4 →
      let b := shifterImm f.rot f.imm8 s.cpsr.c
      exec (a1 f) s = .next (withResult f.s f.rd (alu op (readReg s f.rn) b.value b.carry s.cpsr)
        (charges s.params.cycles.dataImm s))) ∧
    (∀ f : A2, conditionPassed f.cond s.cpsr = true → f.rd ≠ 15#4 →
      let b := shiftImm f.shift f.shiftImm.toNat (readReg s f.rm) s.cpsr.c
      exec (a2 f) s = .next (withResult f.s f.rd (alu op (readReg s f.rn) b.value b.carry s.cpsr)
        (charges s.params.cycles.dataImm s))) ∧
    (∀ f : A3, conditionPassed f.cond s.cpsr = true → (a3 f).restriction = none →
      let b := shiftReg f.shift ((readReg s f.rs).toNat % 256) (readReg s f.rm) s.cpsr.c
      exec (a3 f) s = .next (withResult f.s f.rd (alu op (readReg s f.rn) b.value b.carry s.cpsr)
        (charges s.params.cycles.dataReg s))) := by
  refine ⟨fun f hc hd => ?_, fun f hc hd => ?_, fun f hc hr => ?_⟩
  · rw [h.execA1, dataA1, guarded_pass hc rfl]; exact writeResult_reg (hs.charges _) hd
  · rw [h.execA2, dataA2, guarded_pass hc rfl]; exact writeResult_reg (hs.charges _) hd
  · rw [h.check] at hr
    rw [h.execA3, dataA3, guarded_pass hc hr]; exact writeResult_reg (hs.charges _) (A3_rd_ne_pc hr)

theorem RunsData.pc (h : RunsData a1 a2 a3 op) :
    (∀ f : A1, conditionPassed f.cond s.cpsr = true → f.rd = 15#4 →
      let b := shifterImm f.rot f.imm8 s.cpsr.c
      exec (a1 f) s =
        toPc f.s (alu op (readReg s f.rn) b.value b.carry s.cpsr).value (charges s.params.cycles.dataImm s)) ∧
    (∀ f : A2, conditionPassed f.cond s.cpsr = true → f.rd = 15#4 →
      let b := shiftImm f.shift f.shiftImm.toNat (readReg s f.rm) s.cpsr.c
      exec (a2 f) s =
        toPc f.s (alu op (readReg s f.rn) b.value b.carry s.cpsr).value (charges s.params.cycles.dataImm s)) := by
  refine ⟨fun f hc hd => ?_, fun f hc hd => ?_⟩
  · rw [h.execA1, dataA1, guarded_pass hc rfl]; exact writeResult_pc hd
  · rw [h.execA2, dataA2, guarded_pass hc rfl]; exact writeResult_pc hd

end

section
variable {a1 : A1Mov → Instr} {a2 : A2Mov → Instr} {a3 : A3Mov → Instr} {op : AluOp} {s : State}

theorem RunsMove.reg (h : RunsMove a1 a2 a3 op) (hs : CanAdvance s) :
    (∀ f : A1Mov, conditionPassed f.cond s.cpsr = true → f.rd ≠ 15#4 →
      let b := shifterImm f.rot f.imm8 s.cpsr.c
      exec (a1 f) s =
        .next (withResult f.s f.rd (alu op 0#32 b.value b.carry s.cpsr) (charges s.params.cycles.dataImm s))) ∧
    (∀ f : A2Mov, conditionPassed f.cond s.cpsr = true → f.rd ≠ 15#4 →
      let b := shiftImm f.shift f.shiftImm.toNat (readReg s f.rm) s.cpsr.c
      exec (a2 f) s =
        .next (withResult f.s f.rd (alu op 0#32 b.value b.carry s.cpsr) (charges s.params.cycles.dataImm s))) ∧
    (∀ f : A3Mov, conditionPassed f.cond s.cpsr = true → (a3 f).restriction = none →
      let b := shiftReg f.shift ((readReg s f.rs).toNat % 256) (readReg s f.rm) s.cpsr.c
      exec (a3 f) s =
        .next (withResult f.s f.rd (alu op 0#32 b.value b.carry s.cpsr) (charges s.params.cycles.dataReg s))) := by
  refine ⟨fun f hc hd => ?_, fun f hc hd => ?_, fun f hc hr => ?_⟩
  · rw [h.execA1, moveA1, guarded_pass hc rfl]; exact writeResult_reg (hs.charges _) hd
  · rw [h.execA2, moveA2, guarded_pass hc rfl]; exact writeResult_reg (hs.charges _) hd
  · rw [h.check] at hr
    rw [h.execA3, moveA3, guarded_pass hc hr]; exact writeResult_reg (hs.charges _) (A3Mov_rd_ne_pc hr)

theorem RunsMove.pc (h : RunsMove a1 a2 a3 op) :
    (∀ f : A1Mov, conditionPassed f.cond s.cpsr = true → f.rd = 15#4 →
      let b := shifterImm f.rot f.imm8 s.cpsr.c
      exec (a1 f) s = toPc f.s (alu op 0#32 b.value b.carry s.cpsr).value (charges s.params.cycles.dataImm s)) ∧
    (∀ f : A2Mov, conditionPassed f.cond s.cpsr = true → f.rd = 15#4 →
      let b := shiftImm f.shift f.shiftImm.toNat (readReg s f.rm) s.cpsr.c
      exec (a2 f) s = toPc f.s (alu op 0#32 b.value b.carry s.cpsr).value (charges s.params.cycles.dataImm s)) := by
  refine ⟨fun f hc hd => ?_, fun f hc hd => ?_⟩
  · rw [h.execA1, moveA1, guarded_pass hc rfl]; exact writeResult_pc hd
  · rw [h.execA2, moveA2, guarded_pass hc rfl]; exact writeResult_pc hd

end

section
variable {a1 : A1Cmp → Instr} {a2 : A2Cmp → Instr} {a3 : A3Cmp → Instr} {op : AluOp} {s : State}

theorem RunsCompare.flags (h : RunsCompare a1 a2 a3 op) (hs : CanAdvance s) :
    (∀ f : A1Cmp, conditionPassed f.cond s.cpsr = true →
      let b := shifterImm f.rot f.imm8 s.cpsr.c
      exec (a1 f) s =
        .next (compared (alu op (readReg s f.rn) b.value b.carry s.cpsr) (charges s.params.cycles.dataImm s))) ∧
    (∀ f : A2Cmp, conditionPassed f.cond s.cpsr = true →
      let b := shiftImm f.shift f.shiftImm.toNat (readReg s f.rm) s.cpsr.c
      exec (a2 f) s =
        .next (compared (alu op (readReg s f.rn) b.value b.carry s.cpsr) (charges s.params.cycles.dataImm s))) ∧
    (∀ f : A3Cmp, conditionPassed f.cond s.cpsr = true → (a3 f).restriction = none →
      let b := shiftReg f.shift ((readReg s f.rs).toNat % 256) (readReg s f.rm) s.cpsr.c
      exec (a3 f) s =
        .next (compared (alu op (readReg s f.rn) b.value b.carry s.cpsr) (charges s.params.cycles.dataReg s))) := by
  refine ⟨fun f hc => ?_, fun f hc => ?_, fun f hc hr => ?_⟩
  · rw [h.execA1, compareA1, guarded_pass hc rfl]; exact advance_setFlags (hs.charges _)
  · rw [h.execA2, compareA2, guarded_pass hc rfl]; exact advance_setFlags (hs.charges _)
  · rw [h.check] at hr
    rw [h.execA3, compareA3, guarded_pass hc hr]; exact advance_setFlags (hs.charges _)

end

/-! ### The tables -/

theorem logicalRows_run : ∀ row ∈ logicalRows, ∃ op, RunsData row.a1 row.a2 row.a3 op ∧
    ∀ a b sc p, alu op a b sc p = logical (row.value a b) sc p := by
  simp only [logicalRows, List.forall_mem_cons]
  exact ⟨⟨.and, ⟨fun _ _ => rfl, fun _ _ => rfl, fun _ _ => rfl, fun _ => rfl⟩, fun _ _ _ _ => rfl⟩,
    ⟨.eor, ⟨fun _ _ => rfl, fun _ _ => rfl, fun _ _ => rfl, fun _ => rfl⟩, fun _ _ _ _ => rfl⟩,
    ⟨.orr, ⟨fun _ _ => rfl, fun _ _ => rfl, fun _ _ => rfl, fun _ => rfl⟩, fun _ _ _ _ => rfl⟩,
    ⟨.bic, ⟨fun _ _ => rfl, fun _ _ => rfl, fun _ _ => rfl, fun _ => rfl⟩, fun _ _ _ _ => rfl⟩, nofun⟩

theorem moveRows_run : ∀ row ∈ moveRows, ∃ op, RunsMove row.a1 row.a2 row.a3 op ∧
    ∀ a b sc p, alu op a b sc p = logical (row.value b) sc p := by
  simp only [moveRows, List.forall_mem_cons]
  exact ⟨⟨.mov, ⟨fun _ _ => rfl, fun _ _ => rfl, fun _ _ => rfl, fun _ => rfl⟩, fun _ _ _ _ => rfl⟩,
    ⟨.mvn, ⟨fun _ _ => rfl, fun _ _ => rfl, fun _ _ => rfl, fun _ => rfl⟩, fun _ _ _ _ => rfl⟩, nofun⟩

/-- C and V of the arithmetic operations from exact integers (spec/41_shifter_alu_flags.md R205, R208). -/
theorem arithRows_run : ∀ row ∈ arithRows, ∃ op, RunsData row.a1 row.a2 row.a3 op ∧
    ∀ a b sc p, alu op a b sc p = ⟨row.value a b p.c, row.carry a b p.c, overflows (row.exact a b p.c)⟩ := by
  simp only [arithRows, List.forall_mem_cons]
  exact ⟨⟨.sub, ⟨fun _ _ => rfl, fun _ _ => rfl, fun _ _ => rfl, fun _ => rfl⟩, alu_sub⟩,
    ⟨.rsb, ⟨fun _ _ => rfl, fun _ _ => rfl, fun _ _ => rfl, fun _ => rfl⟩, alu_rsb⟩,
    ⟨.add, ⟨fun _ _ => rfl, fun _ _ => rfl, fun _ _ => rfl, fun _ => rfl⟩, alu_add⟩,
    ⟨.adc, ⟨fun _ _ => rfl, fun _ _ => rfl, fun _ _ => rfl, fun _ => rfl⟩, alu_adc⟩,
    ⟨.sbc, ⟨fun _ _ => rfl, fun _ _ => rfl, fun _ _ => rfl, fun _ => rfl⟩, alu_sbc⟩,
    ⟨.rsc, ⟨fun _ _ => rfl, fun _ _ => rfl, fun _ _ => rfl, fun _ => rfl⟩, alu_rsc⟩, nofun⟩

theorem testRows_run : ∀ row ∈ testRows, ∃ op, RunsCompare row.a1 row.a2 row.a3 op ∧
    ∀ a b sc p, alu op a b sc p = logical (row.value a b) sc p := by
  simp only [testRows, List.forall_mem_cons]
  exact ⟨⟨.tst, ⟨fun _ _ => rfl, fun _ _ => rfl, fun _ _ => rfl, fun _ => rfl⟩, fun _ _ _ _ => rfl⟩,
    ⟨.teq, ⟨fun _ _ => rfl, fun _ _ => rfl, fun _ _ => rfl, fun _ => rfl⟩, fun _ _ _ _ => rfl⟩, nofun⟩

theorem compareRows_run : ∀ row ∈ compareRows, ∃ op, RunsCompare row.a1 row.a2 row.a3 op ∧
    ∀ a b sc p, alu op a b sc p = ⟨row.value a b, row.carry a b, overflows (row.exact a b)⟩ := by
  simp only [compareRows, List.forall_mem_cons]
  exact ⟨⟨.cmp, ⟨fun _ _ => rfl, fun _ _ => rfl, fun _ _ => rfl, fun _ => rfl⟩, alu_cmp⟩,
    ⟨.cmn, ⟨fun _ _ => rfl, fun _ _ => rfl, fun _ _ => rfl, fun _ => rfl⟩, alu_cmn⟩, nofun⟩

theorem valueRows_run : ∀ row ∈ valueRows, ∃ a3 op, RunsData row.1 row.2.1 a3 op ∧
    ∀ a b sc p, (alu op a b sc p).value = row.2.2 a b p.c := by
  intro row h
  simp only [valueRows, List.mem_append, List.mem_map] at h
  obtain ⟨l, hl, rfl⟩ | ⟨l, hl, rfl⟩ := h
  · obtain ⟨op, h, hv⟩ := logicalRows_run l hl
    exact ⟨l.a3, op, h, fun a b sc p => by rw [hv]; rfl⟩
  · obtain ⟨op, h, hv⟩ := arithRows_run l hl
    exact ⟨l.a3, op, h, fun a b sc p => by rw [hv]⟩

/-! ### The obligations -/

/-- Settles O10: every row runs an operation of the ALU that takes C from the shifter and leaves V. -/
theorem logicalOperations : Obligations.logicalOperations := by
  unfold Obligations.logicalOperations
  constructor
  · intro row hr s hs
    obtain ⟨op, h, hv⟩ := logicalRows_run row hr
    simpa only [hv, withResult, logical] using h.reg hs
  · intro row hr s hs
    obtain ⟨op, h, hv⟩ := moveRows_run row hr
    simpa only [hv, withResult, logical] using h.reg hs

/-- Settles O11: every row runs the adder, whose carry and overflow are read off exact integers (`addWithCarry_add`,
`addWithCarry_sub`). -/
theorem arithmeticOperations : Obligations.arithmeticOperations := by
  unfold Obligations.arithmeticOperations
  intro row hr s hs
  obtain ⟨op, h, hv⟩ := arithRows_run row hr
  simpa only [hv, withResult] using h.reg hs

/-- Settles O12: TST and TEQ run a logical operation, CMP and CMN the adder, and the result goes to the flags alone. -/
theorem compares : Obligations.compares := by
  unfold Obligations.compares
  constructor
  · intro row hr s hs
    obtain ⟨op, h, hv⟩ := testRows_run row hr
    simpa only [hv, compared, logical] using h.flags hs
  · intro row hr s hs
    obtain ⟨op, h, hv⟩ := compareRows_run row hr
    simpa only [hv, compared] using h.flags hs

/-- Settles O13: the end of an operation with destination r15 is `toPc` of its value (`writeResult_pc`). -/
theorem resultsToPc : Obligations.resultsToPc := by
  unfold Obligations.resultsToPc
  constructor
  · intro row hr s
    obtain ⟨a3, op, h, hv⟩ := valueRows_run row hr
    simpa only [hv] using h.pc
  · intro row hr s
    obtain ⟨op, h, hv⟩ := moveRows_run row hr
    simpa only [hv, logical] using h.pc

end Sys2Proof.Machine
end

section
/-! MRS and MSR (spec/42_arm_data_processing.md R250, R251): the status word bit by bit, the bytes a field mask names, and the
status an MSR of the CPSR builds. -/

namespace Sys2Proof.Machine

/-! ### The status word -/

theorem psrOfWord_eq (w : Word) : psrOfWord w = (modeOfNumber (w.extractLsb' 0 5)).map fun m => {
    n := w.getLsbD 31, z := w.getLsbD 30, c := w.getLsbD 29, v := w.getLsbD 28
    i := w.getLsbD 7, f := w.getLsbD 6, t := w.getLsbD 5, m } := by
  unfold psrOfWord
  cases modeOfNumber (w.extractLsb' 0 5) <;> rfl

/-- The mode number and the control bits of the status word (spec/10_state.md R35). -/
theorem word_control (p : Psr) : p.word.extractLsb' 0 5 = p.m.number ∧
    p.word.getLsbD 7 = p.i ∧ p.word.getLsbD 6 = p.f ∧ p.word.getLsbD 5 = p.t := by
  refine ⟨BitVec.eq_of_getLsbD_eq fun k hk => ?_, ?_⟩
  · simp only [BitVec.getLsbD_extractLsb', Psr.word, BitVec.getLsbD_append]
    simp [hk]
  · simp only [Psr.word, BitVec.getLsbD_append]
    simp

/-- Bits 27:8 of the status word read as zero (spec/10_state.md R39). -/
theorem word_reserved (p : Psr) {k : Nat} (h8 : 8 ≤ k) (h28 : k < 28) : p.word.getLsbD k = false := by
  simp only [Psr.word, BitVec.getLsbD_append]
  rw [if_neg (by omega), if_neg (by omega), if_neg (by omega), if_neg (by omega), if_pos (by omega)]
  simp

/-! ### The field mask -/

theorem byteMask_getLsbD (mask : BitVec 4) {k : Nat} (hk : k < 32) : (byteMask mask).getLsbD k = mask.getLsbD (k / 8) := by
  have h : ∀ (m : BitVec 4) (j : Fin 32), (byteMask m).getLsbD j = m.getLsbD (j / 8) := by decide
  exact h mask ⟨k, hk⟩

theorem mergeBytes_getLsbD (old x mask : Word) (k : Nat) :
    (mergeBytes old x mask).getLsbD k = (if mask.getLsbD k then x else old).getLsbD k := by
  simp only [mergeBytes, BitVec.getLsbD_or, BitVec.getLsbD_and, BitVec.getLsbD_not]
  cases h : mask.getLsbD k with
  | true => simp
  | false =>
    by_cases hk : k < 32
    · simp [hk]
    · simp [BitVec.getLsbD_of_ge _ _ (Nat.le_of_not_lt hk)]

/-- A byte the field mask names is the operand's, and every other is as before (R251). -/
theorem mergeBytes_byte (old x : Word) (mask : BitVec 4) {k : Nat} (hk : k < 4) :
    (mergeBytes old x (byteMask mask)).extractLsb' (8 * k) 8 =
      (if mask.getLsbD k then x else old).extractLsb' (8 * k) 8 := by
  refine BitVec.eq_of_getLsbD_eq fun j hj => ?_
  simp only [BitVec.getLsbD_extractLsb', mergeBytes_getLsbD, byteMask_getLsbD mask (show 8 * k + j < 32 by omega),
    show (8 * k + j) / 8 = k by omega]

/-- The bits an MSR of the CPSR takes from its operand: in USER mode only the f field's (R251). -/
theorem msrWord_getLsbD (mask : BitVec 4) (x : Word) (s : State) {k : Nat} (hk : k < 32) :
    (msrWord mask x s).getLsbD k =
      (if mask.getLsbD (k / 8) = true ∧ (s.cpsr.m = .user → 24 ≤ k) then x else s.cpsr.word).getLsbD k := by
  have h : ∀ j : Fin 32, (0xFF000000#32).getLsbD j = decide (24 ≤ j.val) := by decide
  rw [msrWord, mergeBytes_getLsbD, cpsrMask]
  split
  · rename_i hu
    simp [hu, byteMask_getLsbD mask hk, h ⟨k, hk⟩]
  · rename_i hu
    simp [hu, byteMask_getLsbD mask hk]

/-! ### MRS and MSR -/

theorem exec_mrs_of_some {f : Mrs} {s : State} {w : Word} (hc : conditionPassed f.cond s.cpsr = true) (hd : f.rd ≠ 15#4)
    (hs : CanAdvance s) (hw : statusWord f.r s = some w) :
    exec (.mrs f) s = .next (forward (writeReg (charges s.params.cycles.status s) f.rd w)) := by
  rw [exec_mrs, execMrs, guarded_pass hc (by simp [Mrs.check, firstOf, isPc, hd]), hw]
  exact advance_next ((hs.charges _).congr (writeReg_pc ..) (congrArg Psr.t (writeReg_cpsr ..)))

theorem exec_mrs_of_none {f : Mrs} {s : State} (hc : conditionPassed f.cond s.cpsr = true) (hd : f.rd ≠ 15#4)
    (hw : statusWord f.r s = none) : exec (.mrs f) s = .fault .invalidMode := by
  rw [exec_mrs, execMrs, guarded_pass hc (by simp [Mrs.check, firstOf, isPc, hd]), hw]

/-- The two forms of MSR, each with its operand, are one meaning. -/
theorem exec_msr {i : Instr} {r : Bool} {mask : BitVec 4} {x : Word} {c : Cond} {s : State}
    (hi : (∃ f : MsrImm, i = .msrImm f ∧ f.r = r ∧ f.cond = c ∧ f.mask = mask ∧
        (shifterImm f.rot f.imm8 s.cpsr.c).value = x) ∨
      (∃ f : MsrReg, i = .msrReg f ∧ f.r = r ∧ f.cond = c ∧ f.mask = mask ∧ f.rm ≠ 15#4 ∧ readReg s f.rm = x))
    (hc : conditionPassed c s.cpsr = true) : exec i s = moveToStatus r mask x s := by
  obtain ⟨f, rfl, rfl, rfl, rfl, rfl⟩ | ⟨f, rfl, rfl, rfl, rfl, hm, rfl⟩ := hi
  · rw [exec_msrImm, execMsrImm, guarded_pass hc rfl]; rfl
  · rw [exec_msrReg, execMsrReg, guarded_pass hc (by simp [MsrReg.check, firstOf, isPc, hm])]

/-! ### The SPSR -/

/-- The modes with an SPSR (spec/10_state.md R40). -/
theorem hasSpsr_iff (m : Mode) : m.hasSpsr = true ↔ ¬ (m = .user ∨ m = .system) := by cases m <;> decide

theorem spsrOf_eq (m : Mode) (s : State) : spsrOf m s = if m = .user ∨ m = .system then none else some s.spsr[m.bank] := by
  simp only [spsrOf, hasSpsr_iff, ite_not]

section
variable {mask : BitVec 4} {x : Word} {s : State}

theorem writeSpsr_fault (h : s.cpsr.m = .user ∨ s.cpsr.m = .system) : writeSpsr mask x s = .fault .invalidMode := by
  rw [writeSpsr, spsrOf_eq, if_pos h]

theorem writeSpsr_next (h : ¬ (s.cpsr.m = .user ∨ s.cpsr.m = .system)) (hs : CanAdvance s) :
    writeSpsr mask x s = .next (forward { s with
      spsr := s.spsr.set s.cpsr.m.bank (mergeBytes s.spsr[s.cpsr.m.bank] x (byteMask mask)) }) := by
  rw [writeSpsr, spsrOf_eq, if_neg h]
  simp only [setSpsrOf, if_pos ((hasSpsr_iff _).2 h)]
  exact advance_next (hs.congr rfl rfl)

end

/-! ### The CPSR -/

section
variable {w : Word} {s : State} {p : Psr}

theorem writeCpsr_changesT (hp : psrOfWord w = some p) (ht : p.t ≠ s.cpsr.t) :
    writeCpsr w s = .refused .msrChangesT := by
  simp only [writeCpsr, hp, if_pos ht]

theorem writeCpsr_branch (hp : psrOfWord w = some p) (ht : p.t = s.cpsr.t) (hm : p.m ≠ s.cpsr.m) :
    writeCpsr w s = .next (branchTo (s.pc + isz s) { s with cpsr := p }) := by
  simp only [writeCpsr, hp, ht, ne_eq, not_true, if_false, if_pos hm]

theorem writeCpsr_next (hp : psrOfWord w = some p) (ht : p.t = s.cpsr.t) (hm : p.m = s.cpsr.m) (hs : CanAdvance s) :
    writeCpsr w s = .next (forward { s with cpsr := p }) := by
  simp only [writeCpsr, hp, ht, hm, ne_eq, not_true, if_false]
  exact advance_next (hs.congr rfl ht)

end

/-- The flags after an MSR of the CPSR: the operand's when the mask names the f field. -/
def msrFlags (mask : BitVec 4) (x : Word) (p : Psr) : Psr :=
  if mask.getLsbD 3
  then { p with n := x.getLsbD 31, z := x.getLsbD 30, c := x.getLsbD 29, v := x.getLsbD 28 } else p

theorem msrFlags_t (mask : BitVec 4) (x : Word) (p : Psr) : (msrFlags mask x p).t = p.t := by
  unfold msrFlags; split <;> rfl

theorem msrFlags_m (mask : BitVec 4) (x : Word) (p : Psr) : (msrFlags mask x p).m = p.m := by
  unfold msrFlags; split <;> rfl

section
variable {mask : BitVec 4} {x : Word} {s : State}

/-- The status an MSR builds: the flags by the f field, and the rest as in a word `y` that has its low byte. -/
theorem psrOfWord_msrWord_of_low {y : Word} (hy : ∀ k, k < 8 → (msrWord mask x s).getLsbD k = y.getLsbD k) :
    psrOfWord (msrWord mask x s) = (modeOfNumber (y.extractLsb' 0 5)).map fun m =>
      { msrFlags mask x s.cpsr with i := y.getLsbD 7, f := y.getLsbD 6, t := y.getLsbD 5, m } := by
  have hm : (msrWord mask x s).extractLsb' 0 5 = y.extractLsb' 0 5 :=
    BitVec.eq_of_getLsbD_eq fun k hk => by simp [hy k (by omega)]
  have hf : ∀ k, 24 ≤ k → k < 32 → (msrWord mask x s).getLsbD k =
      (if mask.getLsbD 3 then x else s.cpsr.word).getLsbD k := fun k h24 hk => by
    simp only [msrWord_getLsbD mask x s hk, show k / 8 = 3 by omega, h24, implies_true, and_true]
  obtain ⟨wn, wz, wc, wv⟩ := word_flags s.cpsr
  rw [psrOfWord_eq, hm, hy 7 (by decide), hy 6 (by decide), hy 5 (by decide), hf 31 (by decide) (by decide),
    hf 30 (by decide) (by decide), hf 29 (by decide) (by decide), hf 28 (by decide) (by decide), msrFlags]
  split
  · rfl
  · rw [wn, wz, wc, wv]

/-- With the c field in force the mode and the control bits are the operand's. -/
theorem psrOfWord_msrWord (h0 : mask.getLsbD 0 = true) (hu : s.cpsr.m ≠ .user) :
    psrOfWord (msrWord mask x s) = (modeOfNumber (x.extractLsb' 0 5)).map fun m =>
      { msrFlags mask x s.cpsr with i := x.getLsbD 7, f := x.getLsbD 6, t := x.getLsbD 5, m } :=
  psrOfWord_msrWord_of_low fun k hk => by
    rw [msrWord_getLsbD mask x s (by omega), Nat.div_eq_of_lt hk, if_pos ⟨h0, fun h => absurd h hu⟩]

/-- Without it, or in USER mode, the flags are all that changes. -/
theorem psrOfWord_msrWord_flags (h : mask.getLsbD 0 = false ∨ s.cpsr.m = .user) :
    psrOfWord (msrWord mask x s) = some (msrFlags mask x s.cpsr) := by
  obtain ⟨hm, hi, hf, ht⟩ := word_control s.cpsr
  rw [psrOfWord_msrWord_of_low (y := s.cpsr.word), hm, modeOfNumber_number, hi, hf, ht, Option.map_some, msrFlags]
  · split <;> rfl
  · intro k hk
    rw [msrWord_getLsbD mask x s (by omega), Nat.div_eq_of_lt hk, if_neg]
    rintro ⟨h0, h24⟩
    rcases h with h | h
    · rw [h] at h0; cases h0
    · have := h24 h
      omega

end

/-! ### The obligations -/

/-- Settles O14: the CPSR reads bit by bit, and the SPSR an MSR leaves byte by byte. -/
theorem statusAccess : Obligations.statusAccess := by
  unfold Obligations.statusAccess
  refine ⟨fun f s hc hd hs hr => ?_, fun f s hc hd hs hr => ?_, fun i mask x c s hi hc hs => ?_⟩
  · obtain ⟨wn, wz, wc, wv⟩ := word_flags s.cpsr
    obtain ⟨wm, wi, wf, wt⟩ := word_control s.cpsr
    exact ⟨s.cpsr.word, exec_mrs_of_some hc hd hs (by rw [hr]; rfl), wn, wz, wc, wv, fun k => word_reserved s.cpsr,
      wi, wf, wt, by rw [wm, modeOfNumber_number]⟩
  · have hw : statusWord f.r s = spsrOf s.cpsr.m s := by rw [hr]; rfl
    rw [spsrOf_eq] at hw
    split
    · rename_i hm; exact exec_mrs_of_none hc hd (by rw [hw, if_pos hm])
    · rename_i hm; exact exec_mrs_of_some hc hd hs (by rw [hw, if_neg hm])
  · have hx : exec i s = writeSpsr mask x (charges s.params.cycles.status s) := exec_msr hi hc
    refine ⟨fun hm => ?_, fun hu hy => ⟨_, ?_, fun k => mergeBytes_byte _ x mask⟩⟩
    · rw [hx, writeSpsr_fault (by rwa [charges_cpsr])]
    · rw [hx, writeSpsr_next (by simp [hu, hy]) (hs.charges _)]
      simp only [charges_spsr, charges_cpsr]

/-- Settles O15: the word an MSR builds gives the flags alone without the c field, and else the operand's mode and control bits
too; what is done with it is the same in both cases. -/
theorem msrCpsr : Obligations.msrCpsr := by
  unfold Obligations.msrCpsr
  intro i mask x c s hi hc s0 flags
  have hx : exec i s = writeCpsr (msrWord mask x s) s0 := exec_msr hi hc
  have h0c : s0.cpsr = s.cpsr := charges_cpsr _ _
  have hpc : s0.pc + isz s0 = s.pc + isz s := by simp only [isz, h0c, s0, charges_pc]
  refine ⟨fun h hs => ?_, fun h0 hu => ?_⟩
  · rw [hx, writeCpsr_next (psrOfWord_msrWord_flags h) (by rw [msrFlags_t, h0c]) (by rw [msrFlags_m, h0c]) (hs.charges _)]
    rfl
  · have hp := psrOfWord_msrWord (x := x) h0 hu
    refine ⟨fun hm => ?_, fun m hm => ?_⟩
    · rw [hm] at hp
      rw [hx, writeCpsr, hp]
      rfl
    · rw [hm, Option.map_some] at hp
      refine ⟨fun ht => ?_, fun ht he hs => ?_, fun ht he => ?_⟩
      · rw [hx, writeCpsr_changesT hp (by rwa [h0c])]
      all_goals rw [ht, ← msrFlags_t mask x s.cpsr] at hp
      · rw [hx, writeCpsr_next hp (by rw [msrFlags_t, h0c]) (by rw [h0c]; exact he) (hs.charges _)]
        rfl
      · rw [hx, writeCpsr_branch hp (by rw [msrFlags_t, h0c]) (by rw [h0c]; exact he), hpc]
        rfl

end Sys2Proof.Machine
end

section
/-! The words of the spec's examples (spec/30_encoding.md R102, R130): each is the word of its instruction. -/

namespace Sys2Proof

theorem decodeArm_of_encode {i : Instr} {w : Word} (hi : encode i = .arm w) : decodeArm w = .instr i := by
  have hd := decodeEncode i
  rwa [hi] at hd

theorem decodeThumb_of_encode {i : Instr} {h : Half} (hi : encode i = .thumb h) : decodeThumb h = .instr i := by
  have hd := decodeEncode i
  rwa [hi] at hd

/-- Settles O3: the decoder gives back the instruction of which a word is the encoding (`decodeEncode`), so it is enough to
encode. -/
theorem knownWords : Obligations.knownWords := by
  unfold Obligations.knownWords
  refine ⟨?_, ?_, ?_, ?_, ?_, ?_, ?_, ?_, ?_, ?_, ?_, decodeThumb_of_encode rfl, decodeThumb_of_encode rfl⟩
  all_goals exact decodeArm_of_encode rfl

end Sys2Proof
end

section
/-! The multiplies (spec/43_arm_multiply.md R260 to R267; spec/48_thumb_data.md R375): the array's cycles read off the value of
the multiplier, the exact products in 64 bits, and the one way a multiply ends. -/

namespace Sys2Proof.Machine

/-! ### The array's cycles (R261) -/

section
variable (v : Word) {k : Nat}

theorem ushiftRight_eq_zero_iff : v >>> k = 0#32 ↔ v.toNat < 2 ^ k := by
  rw [← BitVec.toNat_inj, BitVec.toNat_ushiftRight, Nat.shiftRight_eq_div_pow, BitVec.toNat_ofNat, Nat.zero_mod,
    Nat.div_eq_zero_iff_lt (Nat.two_pow_pos k)]

/-- The bits from `k` up are all ones when those of the complement are all zeros. -/
theorem sshiftRight_eq_ones_iff (hk : k < 32) : v.sshiftRight k = 0xFFFFFFFF#32 ↔ 4294967296 - 2 ^ k ≤ v.toNat := by
  have hp : 2 ^ k ≤ 2 ^ 31 := Nat.pow_le_pow_right (by decide) (by omega)
  have hm := BitVec.msb_eq_decide v
  cases h : v.msb with
  | true =>
    have hc : ~~~(~~~v >>> k) = 0xFFFFFFFF#32 ↔ ~~~v >>> k = 0#32 := BitVec.not_inj (y := 0#32)
    rw [BitVec.sshiftRight_eq_of_msb_true h, hc, ushiftRight_eq_zero_iff, BitVec.toNat_not]
    omega
  | false =>
    have hv : v.toNat < 2 ^ 31 := by simpa [h] using hm
    rw [BitVec.sshiftRight_eq_of_msb_false h, ← BitVec.toNat_inj, BitVec.toNat_ushiftRight, Nat.shiftRight_eq_div_pow,
      BitVec.toNat_ofNat]
    have hd := Nat.div_le_self v.toNat (2 ^ k)
    omega

theorem topUniform_eq (signed : Bool) (hk : k < 32) :
    topUniform signed v k = (decide (v.toNat < 2 ^ k) || (signed && decide (4294967296 - 2 ^ k ≤ v.toNat))) := by
  simp only [topUniform, beq_eq_decide, ushiftRight_eq_zero_iff, sshiftRight_eq_ones_iff v hk]

theorem multiplierCycles_eq (signed : Bool) (t : CycleTable) : multiplierCycles signed t v = arrayCycles signed t v := by
  unfold multiplierCycles arrayCycles
  rw [topUniform_eq v signed (k := 8) (by decide), topUniform_eq v signed (k := 16) (by decide),
    topUniform_eq v signed (k := 24) (by decide)]

theorem multiplyRow_eq (signed : Bool) (t : CycleTable) (row : Cycles) :
    multiplyRow signed t v row = { i := arrayCycles signed t v + row.i, c := row.c } := by
  rw [multiplyRow, multiplierCycles_eq]

end

/-! ### The products (spec/41_shifter_alu_flags.md R212) -/

section
variable (a b : Word)

theorem ofNat_toNat_mul : BitVec.ofNat 32 (a.toNat * b.toNat) = a * b := by
  rw [BitVec.ofNat_mul, BitVec.ofNat_toNat, BitVec.ofNat_toNat, BitVec.setWidth_eq, BitVec.setWidth_eq]

theorem ofNat_toNat_mul_add (c : Word) : BitVec.ofNat 32 (a.toNat * b.toNat + c.toNat) = a * b + c := by
  rw [BitVec.ofNat_add, ofNat_toNat_mul, BitVec.ofNat_toNat, BitVec.setWidth_eq]

theorem umul64_eq : umul64 a b = a.setWidth 64 * b.setWidth 64 := by
  rw [umul64, BitVec.ofNat_mul, BitVec.ofNat_toNat, BitVec.ofNat_toNat]

theorem smul64_eq : smul64 a b = a.signExtend 64 * b.signExtend 64 := BitVec.ofInt_mul _ _

end

/-! ### The end of a multiply -/

section
variable {s : State}

theorem CanAdvance.writeReg (h : CanAdvance s) (rd : RegNum) (r : Word) : CanAdvance (writeReg s rd r) :=
  h.congr (writeReg_pc ..) (by rw [writeReg_cpsr])

theorem advance_multiplyFlags (h : CanAdvance s) (on : Bool) (r : Word) :
    ∃ c k, advance (multiplyFlags on r s) = .next { forward (withFlags on r c s.cpsr.v s) with freeCount := k } := by
  cases on with
  | true =>
    refine ⟨Config.freeBit s.freeCount, s.freeCount + 1, ?_⟩
    rw [multiplyFlags, if_pos rfl, setNz_eq]
    exact advance_next (h.congr rfl rfl)
  | false => exact ⟨false, s.freeCount, advance_next h⟩

theorem advance_multiplyFlags64 (h : CanAdvance s) (on : Bool) (p : BitVec 64) :
    ∃ c v k, advance (multiplyFlags64 on p s) = .next { forward { s with
        cpsr := if on then { s.cpsr with n := p.msb, z := decide (p = 0#64), c, v } else s.cpsr }
      with freeCount := k } := by
  cases on with
  | true =>
    refine ⟨Config.freeBit s.freeCount, Config.freeBit (s.freeCount + 1), s.freeCount + 2, ?_⟩
    rw [BitVec.msb_eq_getLsbD_last, ← beq_eq_decide]
    exact advance_next (h.congr rfl rfl)
  | false => exact ⟨false, false, s.freeCount, advance_next h⟩

/-- The end of MUL and MLA: the result in Rd, its N and Z, and a C that the model chooses (R260, U7). -/
theorem finishMul_next (h : CanAdvance s) (on : Bool) (rd : RegNum) (r : Word) (row : Cycles) :
    ∃ c k, finishMul on rd r row s =
      .next { forward (withFlags on r c s.cpsr.v (writeReg (charges row s) rd r)) with freeCount := k } := by
  have hf := advance_multiplyFlags ((h.charges row).writeReg rd r) on r
  rwa [writeReg_cpsr, charges_cpsr] at hf

/-- The end of a long multiply: the halves in RdLo and RdHi, N and Z of the whole, and C and V that the model chooses
(R260, U7). -/
theorem finishMull_next (h : CanAdvance s) (f : Mull) (p : BitVec 64) (row : Cycles) :
    ∃ c v k, finishMull f p row s = .next { forward {
        writeReg (writeReg (charges row s) f.rdLo (p.extractLsb' 0 32)) f.rdHi (p.extractLsb' 32 32) with
          cpsr := if f.s then { s.cpsr with n := p.msb, z := decide (p = 0#64), c, v } else s.cpsr }
      with freeCount := k } := by
  have hf := advance_multiplyFlags64 (((h.charges row).writeReg f.rdLo (p.extractLsb' 0 32)).writeReg f.rdHi
    (p.extractLsb' 32 32)) f.s p
  rwa [writeReg_cpsr, writeReg_cpsr, charges_cpsr] at hf

end

/-! ### The obligations -/

/-- Settles O16: each form ends by `finishMul` of the low word of its product, whose charge is the array's. -/
theorem multiplies : Obligations.multiplies := by
  unfold Obligations.multiplies
  simp only [← multiplyRow_eq, ofNat_toNat_mul, ofNat_toNat_mul_add]
  refine ⟨fun f s hc (hr : f.check = none) hs => ?_, fun f s hc (hr : f.check = none) hs => ?_,
    fun f s (hr : f.checkMul = none) hs => ?_⟩
  · rw [exec_mul, execMul, guarded_pass hc hr]
    exact finishMul_next hs _ _ _ _
  · rw [exec_mla, execMla, guarded_pass hc hr]
    exact finishMul_next hs _ _ _ _
  · rw [exec_tMul, execTMul, checked_pass hr]
    exact finishMul_next hs _ _ _ _

/-- Settles O17: each form ends by `finishMull` of its 64-bit product, whose charge is the array's. -/
theorem longMultiplies : Obligations.longMultiplies := by
  unfold Obligations.longMultiplies
  intro f s hc hr hs
  simp only [← multiplyRow_eq, ← umul64_eq, ← smul64_eq]
  refine ⟨?_, ?_, ?_, ?_⟩
  · rw [exec_umull, execUmull, guarded_pass hc hr]
    exact finishMull_next hs f _ _
  · rw [exec_umlal, execUmlal, guarded_pass hc hr]
    exact finishMull_next hs f _ _
  · rw [exec_smull, execSmull, guarded_pass hc hr]
    exact finishMull_next hs f _ _
  · rw [exec_smlal, execSmlal, guarded_pass hc hr]
    exact finishMull_next hs f _ _

end Sys2Proof.Machine
end

section
/-! The ARM branches and BX (spec/44_arm_branch.md R270 to R272; spec/48_thumb_data.md R381): the signed offset of a target
read as an integer, and bits 1:0 of an exchange target. -/

namespace Sys2Proof.Machine

/-- A sign-extended offset with `k` zero bits under it is `2 ^ k` times the signed offset. -/
theorem signExtend_append_zero {n : Nat} (x : BitVec n) (k w : Nat) :
    (x ++ 0#k).signExtend w = BitVec.ofInt w (2 ^ k * x.toInt) := by
  rw [BitVec.signExtend, BitVec.toInt_append_zero, Int.mul_comm]

theorem branchTarget_eq (imm24 : BitVec 24) (s : State) :
    branchTarget imm24 s = s.pc + 8#32 + BitVec.ofInt 32 (4 * imm24.toInt) := by
  rw [branchTarget, signExtend_append_zero]; rfl

theorem eq_two_iff_bits : ∀ y : BitVec 2, y = 0b10#2 ↔ y.getLsbD 0 = false ∧ y.getLsbD 1 = true := by decide

theorem extractLsb'_zero_two_eq_two_iff (x : Word) :
    x.extractLsb' 0 2 = 0b10#2 ↔ x.getLsbD 0 = false ∧ x.getLsbD 1 = true := by
  simp [eq_two_iff_bits]

/-- BX after its cycles (R272): U10 for bits 1:0 = 10, else T from bit 0 and the branch. -/
theorem branchExchange_branchCycles (x : Word) (s : State) :
    branchExchange x (branchCycles s) = if x.extractLsb' 0 2 = 0b10#2 then .refused .misalignedPc
      else .next (branchTo x { charges s.params.cycles.branch s with cpsr := { s.cpsr with t := x.getLsbD 0 } }) := by
  simp only [branchExchange, branchCycles, charges_cpsr, extractLsb'_zero_two_eq_two_iff]

/-- Settles O18: B and BL go to `branchTarget_eq`, and both forms of BX are one `branchExchange`. -/
theorem branches : Obligations.branches := by
  unfold Obligations.branches
  simp only [← branchTarget_eq]
  refine ⟨fun f s hc => ⟨?_, ?_⟩, fun i x s hi => ?_⟩
  · rw [exec_b, execB, guarded_pass hc rfl, branchCycles]
  · rw [exec_bl, execBl, guarded_pass hc rfl, branchCycles, lrNum]
  · obtain ⟨f, rfl, hc, rfl⟩ | ⟨f, rfl, rfl⟩ := hi
    · rw [exec_bx, execBx, guarded_pass hc rfl]
      exact branchExchange_branchCycles _ s
    · exact (exec_tBx f s).trans (branchExchange_branchCycles _ s)

end Sys2Proof.Machine
end

section
/-! The ARM single transfers and swaps over a quiet interface (spec/45_arm_load_store.md R280 to R301; spec/20_memory.md R80 to
R82): what a load, a store and a swap do once the condition has passed and the form has a meaning. -/

namespace Sys2Proof.Machine

/-! ### The access -/

/-- A halfword access is not refused at the even addresses (R75). -/
theorem oddHalf_eq_false {sz : Size} {a : Word} (h : sz = .half → a.getLsbD 0 = false) : oddHalf sz a = false := by
  rw [Bool.eq_false_iff, ne_eq, oddHalf_iff]
  rintro ⟨hs, h0⟩
  rw [h hs] at h0
  cases h0

/-- A store at the port, in the terms of the statements (R73, R74). -/
theorem portStore_stored {s t : State} (hw : s.mem.wf = true) {sz : Size} {a v : Word}
    (ha : sz = .half → a.getLsbD 0 = false) (h : t.mem = portStore s.mem sz a v) : Stored sz a v s t := fun x => by
  have he : sz = .half → a.toNat % 2 = 0 := fun hs => by simpa [BitVec.getLsbD, Nat.testBit_zero] using ha hs
  rw [h, memGet_portStore hw sz a v he x]

/-! ### The end -/

theorem writeBack_wbOf (w : Bool) (rn : RegNum) (adr : Address) (s : State) :
    writeBack (wbOf w rn adr) s = if w then writeReg s rn adr.moved else s := by cases w <;> rfl

theorem CanAdvance.writeBack {s : State} (h : CanAdvance s) (wb : Option (RegNum × Word)) : CanAdvance (writeBack wb s) :=
  h.congr (writeBack_pc ..) (by rw [writeBack_cpsr])

section
variable {s : State} {rd : RegNum} {a : Word} {wb : Option (RegNum × Word)}

theorem finishLoad_reg (hs : CanAdvance s) (hd : rd ≠ 15#4) (v : Word) : finishLoad rd wb v s =
    .next (forward (writeReg (writeBack wb (charges s.params.cycles.load s)) rd v)) := by
  rw [finishLoad, if_neg hd]
  exact advance_next (((hs.charges _).writeBack wb).writeReg rd v)

theorem finishLoad_pc (hd : rd = 15#4) (v : Word) : finishLoad rd wb v s = if aligned s.cpsr.t v then
    .next (branchTo v (writeBack wb (charges s.params.cycles.load s))) else .refused .misalignedPc := by
  rw [finishLoad, if_pos hd, jump_eq, writeBack_cpsr, charges_cpsr]

/-- A load over a quiet interface: one N cycle and the value of `LoadOp.value` (R80). -/
theorem loadReg_quiet {op : LoadOp} (hq : QuietAt .read op.size a s) (ha : op.size = .half → a.getLsbD 0 = false) :
    loadReg op rd a wb s = finishLoad rd wb (op.value a (portLoad s.mem op.size a)) (settled (spend 1 0 0 0 s)) := by
  rw [loadReg, oddHalf_eq_false ha, memRead_quiet hq]
  rfl

/-- A store over a quiet interface: one N cycle and the bytes of the value (R81). -/
theorem storeReg_quiet {sz : Size} (hs : CanAdvance s) (hq : QuietAt .write sz a s)
    (ha : sz = .half → a.getLsbD 0 = false) :
    storeReg sz rd a wb s = .next (forward (writeBack wb (charges s.params.cycles.store
      { settled (spend 1 0 0 0 s) with mem := portStore s.mem sz a (storeValue s rd) }))) := by
  rw [storeReg, oddHalf_eq_false ha, memWrite_quiet hq]
  exact advance_next (CanAdvance.writeBack (CanAdvance.charges (s := { settled (spend 1 0 0 0 s) with mem := _ }) hs _) wb)

end

/-! ### The instructions -/

/-- The instruction is a transfer of one register at the address, once its condition has passed, if its form has a
meaning. -/
def RunsTransfer (i : Instr) (c : Cond) (x : Transfer) (rd rn : RegNum) (adr : State → Address) (w : Bool) : Prop :=
  ∀ s, conditionPassed c s.cpsr = true → i.restriction = none →
    exec i s = transfer x rd (adr s).addr (wbOf w rn (adr s)) s

section
variable {i : Instr} {c : Cond} {rd rn : RegNum} {adr : State → Address} {w : Bool} {s : State}

theorem runsTransfer_of_guarded {x : Transfer}
    (h : exec i = guarded c i.restriction fun s => transfer x rd (adr s).addr (wbOf w rn (adr s)) s) :
    RunsTransfer i c x rd rn adr w := fun s hc hr => by rw [h, guarded_pass hc hr]

/-- A load with a destination other than r15. -/
theorem RunsTransfer.load_reg {op : LoadOp} (h : RunsTransfer i c (.load op) rd rn adr w) (hs : CanAdvance s)
    (hc : conditionPassed c s.cpsr = true) (hi : i.restriction = none) (hd : rd ≠ 15#4)
    (hq : QuietAt .read op.size (adr s).addr s) (ha : op.size = .half → (adr s).addr.getLsbD 0 = false) :
    let s1 := charges s.params.cycles.load (settled (spend 1 0 0 0 s))
    exec i s = .next (forward (writeReg (if w then writeReg s1 rn (adr s).moved else s1) rd
      (op.value (adr s).addr (portLoad s.mem op.size (adr s).addr)))) := by
  intro s1
  have h1 : CanAdvance (settled (spend 1 0 0 0 s)) := hs
  rw [h s hc hi, transfer, loadReg_quiet hq ha, finishLoad_reg h1 hd, writeBack_wbOf]
  rfl

/-- A word loaded into the pc (R285). -/
theorem RunsTransfer.load_pc (h : RunsTransfer i c (.load .word) rd rn adr w) (hc : conditionPassed c s.cpsr = true)
    (hd : rd = 15#4) (hi : i.restriction = none) (hq : QuietAt .read .word (adr s).addr s) :
    let v := LoadOp.word.value (adr s).addr (portLoad s.mem .word (adr s).addr)
    let s1 := charges s.params.cycles.load (settled (spend 1 0 0 0 s))
    exec i s = if aligned s.cpsr.t v then .next (branchTo v (if w then writeReg s1 rn (adr s).moved else s1))
      else .refused .misalignedPc := by
  intro v s1
  rw [h s hc hi, transfer, loadReg_quiet (op := .word) hq nofun, finishLoad_pc hd, writeBack_wbOf]
  rfl

theorem RunsTransfer.store {sz : Size} (h : RunsTransfer i c (.store sz) rd rn adr w) (hs : CanAdvance s)
    (hw : s.mem.wf = true) (hc : conditionPassed c s.cpsr = true) (hi : i.restriction = none)
    (hq : QuietAt .write sz (adr s).addr s) (ha : sz = .half → (adr s).addr.getLsbD 0 = false) :
    ∃ s1, Stored sz (adr s).addr (storeValue s rd) s s1 ∧ s1 = { settled (spend 1 0 0 0 s) with mem := s1.mem } ∧
      let s2 := charges s.params.cycles.store s1
      exec i s = .next (forward (if w then writeReg s2 rn (adr s).moved else s2)) := by
  refine ⟨{ settled (spend 1 0 0 0 s) with mem := portStore s.mem sz (adr s).addr (storeValue s rd) },
    portStore_stored hw ha rfl, rfl, ?_⟩
  rw [h s hc hi, transfer, storeReg_quiet hs hq ha, writeBack_wbOf]

/-- A swap over a quiet interface: two N cycles, the old contents and the new bytes (R82). -/
theorem swap_quiet {op : LoadOp} {f : Swp} (hs : CanAdvance s) (hw : s.mem.wf = true) (hn : op.size ≠ .half)
    (hc : conditionPassed f.cond s.cpsr = true) (hf : f.check = none) (hq : QuietAt .swap op.size (readReg s f.rn) s) :
    ∃ s1, Stored op.size (readReg s f.rn) (readReg s f.rm) s s1 ∧ s1 = { settled (spend 2 0 0 0 s) with mem := s1.mem } ∧
      swap op f s = .next (forward (writeReg (charges s.params.cycles.swap s1) f.rd
        (op.value (readReg s f.rn) (portLoad s.mem op.size (readReg s f.rn))))) := by
  refine ⟨{ settled (spend 2 0 0 0 s) with mem := portStore s.mem op.size (readReg s f.rn) (readReg s f.rm) },
    portStore_stored hw (fun e => absurd e hn) rfl, rfl, ?_⟩
  have h1 : CanAdvance { settled (spend 2 0 0 0 s) with
      mem := portStore s.mem op.size (readReg s f.rn) (readReg s f.rm) } := hs
  rw [swap, guarded_pass hc hf, memSwap_quiet hq]
  exact advance_next ((h1.charges _).writeReg f.rd _)

end

/-! ### The tables: the user-mode forms (LDRT, LDRBT, STRT, STRBT) are rows of the post-indexed ones (log 20) -/

theorem loadsImmPre_run : ∀ row ∈ loadsImmPre, ∀ f : LsImmPre,
    RunsTransfer (row.1 f) f.cond (.load row.2) f.rd f.rn (addrImmPre f) f.w := by
  simp only [loadsImmPre, List.forall_mem_cons]
  exact ⟨fun _ => runsTransfer_of_guarded rfl, fun _ => runsTransfer_of_guarded rfl, nofun⟩

theorem loadsImmPost_run : ∀ row ∈ loadsImmPost, ∀ f : LsImmPost,
    RunsTransfer (row.1 f) f.cond (.load row.2) f.rd f.rn (addrImmPost f) true := by
  simp only [loadsImmPost, List.forall_mem_cons]
  exact ⟨fun _ => runsTransfer_of_guarded rfl, fun _ => runsTransfer_of_guarded rfl,
    fun _ => runsTransfer_of_guarded rfl, fun _ => runsTransfer_of_guarded rfl, nofun⟩

theorem loadsRegPre_run : ∀ row ∈ loadsRegPre, ∀ f : LsRegPre,
    RunsTransfer (row.1 f) f.cond (.load row.2) f.rd f.rn (addrRegPre f) f.w := by
  simp only [loadsRegPre, List.forall_mem_cons]
  exact ⟨fun _ => runsTransfer_of_guarded rfl, fun _ => runsTransfer_of_guarded rfl, nofun⟩

theorem loadsRegPost_run : ∀ row ∈ loadsRegPost, ∀ f : LsRegPost,
    RunsTransfer (row.1 f) f.cond (.load row.2) f.rd f.rn (addrRegPost f) true := by
  simp only [loadsRegPost, List.forall_mem_cons]
  exact ⟨fun _ => runsTransfer_of_guarded rfl, fun _ => runsTransfer_of_guarded rfl,
    fun _ => runsTransfer_of_guarded rfl, fun _ => runsTransfer_of_guarded rfl, nofun⟩

theorem loadsHwReg_run : ∀ row ∈ loadsHwReg, ∀ f : HwReg,
    RunsTransfer (row.1 f) f.cond (.load row.2) f.rd f.rn (addrHwReg f) f.writeBack := by
  simp only [loadsHwReg, List.forall_mem_cons]
  exact ⟨fun _ => runsTransfer_of_guarded rfl, fun _ => runsTransfer_of_guarded rfl,
    fun _ => runsTransfer_of_guarded rfl, nofun⟩

theorem loadsHwImm_run : ∀ row ∈ loadsHwImm, ∀ f : HwImm,
    RunsTransfer (row.1 f) f.cond (.load row.2) f.rd f.rn (addrHwImm f) f.writeBack := by
  simp only [loadsHwImm, List.forall_mem_cons]
  exact ⟨fun _ => runsTransfer_of_guarded rfl, fun _ => runsTransfer_of_guarded rfl,
    fun _ => runsTransfer_of_guarded rfl, nofun⟩

theorem storesImmPre_run : ∀ row ∈ storesImmPre, ∀ f : LsImmPre,
    RunsTransfer (row.1 f) f.cond (.store row.2) f.rd f.rn (addrImmPre f) f.w := by
  simp only [storesImmPre, List.forall_mem_cons]
  exact ⟨fun _ => runsTransfer_of_guarded rfl, fun _ => runsTransfer_of_guarded rfl, nofun⟩

theorem storesImmPost_run : ∀ row ∈ storesImmPost, ∀ f : LsImmPost,
    RunsTransfer (row.1 f) f.cond (.store row.2) f.rd f.rn (addrImmPost f) true := by
  simp only [storesImmPost, List.forall_mem_cons]
  exact ⟨fun _ => runsTransfer_of_guarded rfl, fun _ => runsTransfer_of_guarded rfl,
    fun _ => runsTransfer_of_guarded rfl, fun _ => runsTransfer_of_guarded rfl, nofun⟩

theorem storesRegPre_run : ∀ row ∈ storesRegPre, ∀ f : LsRegPre,
    RunsTransfer (row.1 f) f.cond (.store row.2) f.rd f.rn (addrRegPre f) f.w := by
  simp only [storesRegPre, List.forall_mem_cons]
  exact ⟨fun _ => runsTransfer_of_guarded rfl, fun _ => runsTransfer_of_guarded rfl, nofun⟩

theorem storesRegPost_run : ∀ row ∈ storesRegPost, ∀ f : LsRegPost,
    RunsTransfer (row.1 f) f.cond (.store row.2) f.rd f.rn (addrRegPost f) true := by
  simp only [storesRegPost, List.forall_mem_cons]
  exact ⟨fun _ => runsTransfer_of_guarded rfl, fun _ => runsTransfer_of_guarded rfl,
    fun _ => runsTransfer_of_guarded rfl, fun _ => runsTransfer_of_guarded rfl, nofun⟩

theorem strhReg_run (f : HwReg) :
    RunsTransfer (.strhReg f) f.cond (.store .half) f.rd f.rn (addrHwReg f) f.writeBack := runsTransfer_of_guarded rfl

theorem strhImm_run (f : HwImm) :
    RunsTransfer (.strhImm f) f.cond (.store .half) f.rd f.rn (addrHwImm f) f.writeBack := runsTransfer_of_guarded rfl

/-! ### The obligations -/

/-- Settles O21: every row runs a transfer (the tables above), and so one load at its address. -/
theorem armLoads : Obligations.armLoads := by
  unfold Obligations.armLoads
  intro s hs
  exact ⟨fun row hr f hc => (loadsImmPre_run row hr f).load_reg hs hc,
    fun row hr f hc => (loadsImmPost_run row hr f).load_reg hs hc,
    fun row hr f hc => (loadsRegPre_run row hr f).load_reg hs hc,
    fun row hr f hc => (loadsRegPost_run row hr f).load_reg hs hc,
    fun row hr f hc => (loadsHwReg_run row hr f).load_reg hs hc,
    fun row hr f hc => (loadsHwImm_run row hr f).load_reg hs hc⟩

/-- Settles O22: LDR is the first row of its tables, and a load to r15 ends by a jump to the value. -/
theorem loadsToPc : Obligations.loadsToPc := by
  unfold Obligations.loadsToPc
  intro s
  exact ⟨fun f hc hd => (loadsImmPre_run _ List.mem_cons_self f).load_pc hc hd,
    fun f hc hd => (loadsImmPost_run _ List.mem_cons_self f).load_pc hc hd,
    fun f hc hd => (loadsRegPre_run _ List.mem_cons_self f).load_pc hc hd,
    fun f hc hd => (loadsRegPost_run _ List.mem_cons_self f).load_pc hc hd⟩

/-- Settles O23: every row runs a transfer (the tables above), and so one store at its address. -/
theorem armStores : Obligations.armStores := by
  unfold Obligations.armStores
  intro s hs hw
  exact ⟨fun row hr f hc => (storesImmPre_run row hr f).store hs hw hc,
    fun row hr f hc => (storesImmPost_run row hr f).store hs hw hc,
    fun row hr f hc => (storesRegPre_run row hr f).store hs hw hc,
    fun row hr f hc => (storesRegPost_run row hr f).store hs hw hc,
    fun f hc => (strhReg_run f).store hs hw hc,
    fun f hc => (strhImm_run f).store hs hw hc⟩

/-- Settles O24: SWP and SWPB are `swap` of a word and of a byte, whose access reads before it stores. -/
theorem swaps : Obligations.swaps := by
  unfold Obligations.swaps
  intro f s hc hf hs hw
  exact ⟨swap_quiet (op := .word) hs hw nofun hc hf, swap_quiet (op := .byte) hs hw nofun hc hf⟩

end Sys2Proof.Machine
end

section
/-! Block transfers over a quiet interface (spec/46_arm_block_transfer.md R310 to R317; spec/20_memory.md R80, R81, R85): the
words an LDM reads and whose they are, the bytes an STM leaves, and the base written back. -/

namespace Sys2Proof.Machine

/-! ### Lists and addresses -/

theorem countBelow_le {n : Nat} (list : BitVec n) (r : Nat) : countBelow list r ≤ r :=
  List.countP_le_length.trans_eq List.length_range

/-- A listed register has its place among the words of its list. -/
theorem countBelow_lt {n : Nat} {list : BitVec n} {r : Nat} (h : list.getLsbD r = true) :
    countBelow list r < countBelow list n := by
  rw [← listRegs_length]
  exact (List.getElem?_eq_some_iff.1 (listRegs_get h)).1

/-- A list that is not empty has a word to move (R313). -/
theorem countBelow_pos {n : Nat} {list : BitVec n} (h : list ≠ 0#n) : 0 < countBelow list n := by
  by_contra hc
  refine h (BitVec.eq_of_getLsbD_eq fun i hi => ?_)
  rw [BitVec.getLsbD_zero, Bool.eq_false_iff]
  intro hb
  have := countBelow_lt hb
  omega

/-- A form whose check begins with U14 has a list that is not empty. -/
theorem list_ne_zero {n : Nat} {list : BitVec n} {r : Restriction} {rest : List (Bool × Restriction)}
    (h : firstOf ((list == 0#n, r) :: rest) = none) : list ≠ 0#n := by
  rintro rfl
  simp [firstOf] at h

/-- A list put together of the registers below `n` and others from `n` on. -/
theorem listRegs_or {n : Nat} (hn : n ≤ 16) (list : BitVec n) {high : BitVec 16} (h : ∀ i, i < n → high.getLsbD i = false) :
    listRegs (list.setWidth 16 ||| high) = listRegs list ++ listRegs high := by
  have e : List.range 16 = List.range n ++ (List.range (16 - n)).map (n + ·) := by
    rw [← List.range_add, Nat.add_sub_cancel' hn]
  have hl : (List.range n).filter (fun i => (list.setWidth 16 ||| high).getLsbD i) =
      (List.range n).filter fun i => list.getLsbD i := by
    refine List.filter_congr fun i hi => ?_
    have hi := List.mem_range.1 hi
    rw [BitVec.getLsbD_or, h i hi, Bool.or_false, BitVec.getLsbD_setWidth, decide_eq_true (by omega), Bool.true_and]
  have hz : (List.range n).filter (fun i => high.getLsbD i) = [] := by
    simpa [List.filter_eq_nil_iff] using h
  have hh : ((List.range (16 - n)).map (n + ·)).filter (fun i => (list.setWidth 16 ||| high).getLsbD i) =
      ((List.range (16 - n)).map (n + ·)).filter fun i => high.getLsbD i := by
    refine List.filter_congr fun i hi => ?_
    obtain ⟨j, -, rfl⟩ := List.mem_map.1 hi
    rw [BitVec.getLsbD_or, BitVec.getLsbD_setWidth, BitVec.getLsbD_of_ge list _ (by omega), Bool.and_false, Bool.false_or]
  simp only [listRegs, e, List.filter_append, List.map_append, hl, hh, hz, List.nil_append]

/-- The registers of LDM(3) are those of its 16-bit list (R315). -/
theorem listRegs_returnList (f : BlockUser) : listRegs (returnList f) = returnRegs f :=
  listRegs_or (by decide) f.list (by decide)

theorem returnList_getLsbD (f : BlockUser) {r : RegNum} (h : r ≠ 15#4) :
    (returnList f).getLsbD r.toNat = f.list.getLsbD r.toNat := by
  have hb : ∀ r : RegNum, r ≠ 15#4 → (0x8000#16).getLsbD r.toNat = false := by decide
  rw [returnList, BitVec.getLsbD_or, hb r h, Bool.or_false, BitVec.getLsbD_setWidth, decide_eq_true r.isLt, Bool.true_and]

/-- `start` of R310. -/
theorem blockAddress_addr (p u : Bool) (base : Word) (n : Nat) :
    (blockAddress p u base (BitVec.ofNat 32 (4 * n))).addr = blockStart p u base n := by
  cases p <;> cases u <;> rfl

/-- `wbv` of R310. -/
theorem blockAddress_moved (p u : Bool) (base bytes : Word) :
    (blockAddress p u base bytes).moved = if u then base + bytes else base - bytes := by
  cases p <;> cases u <;> rfl

theorem listBytes_listRegs {n : Nat} (list : BitVec n) :
    listBytes (listRegs list) = BitVec.ofNat 32 (4 * countBelow list n) := by
  rw [listBytes, listRegs_length]

theorem addrBlock_start (f : Block) (s : State) :
    (addrBlock f s).addr = blockStart f.p f.u (readReg s f.rn) (countBelow f.list 16) := by
  rw [addrBlock, listBytes_listRegs, blockAddress_addr]

theorem addrBlock_moved (f : Block) (s : State) : (addrBlock f s).moved =
    if f.u then readReg s f.rn + BitVec.ofNat 32 (4 * countBelow f.list 16)
    else readReg s f.rn - BitVec.ofNat 32 (4 * countBelow f.list 16) := by
  rw [addrBlock, listBytes_listRegs, blockAddress_moved]

theorem addrBlockUser_start {n : Nat} {list : BitVec n} (f : BlockUser) (s : State) :
    (addrBlockUser (listRegs list) f s).addr = blockStart f.p f.u (readReg s f.rn) (countBelow list n) := by
  rw [addrBlockUser, listBytes_listRegs, blockAddress_addr]

theorem addrBlockUser_moved {n : Nat} {list : BitVec n} (f : BlockUser) (s : State) :
    (addrBlockUser (listRegs list) f s).moved =
    if f.u then readReg s f.rn + BitVec.ofNat 32 (4 * countBelow list n)
    else readReg s f.rn - BitVec.ofNat 32 (4 * countBelow list n) := by
  rw [addrBlockUser, listBytes_listRegs, blockAddress_moved]

/-! ### The words read -/

/-- One N cycle and `n` S cycles of accesses that did not abort. -/
theorem countAccess_n_s (n : Nat) (s : State) : countAccess .s n (countAccess .n 1 s) = spend 1 n 0 0 s := by
  simp [countAccess, spend, charge, Nat.add_assoc]

/-- A block load over a quiet interface goes on with the words of memory (R85). -/
theorem loadWords_quiet {n : Nat} (hn : 0 < n) {a : Word} {k : List Word → State → Out} {s : State}
    (h : QuietWords .read n a s) : loadWords n a k s = k (wordsAt s.mem n a) (settled (spend 1 (n - 1) 0 0 s)) := by
  obtain ⟨m, rfl⟩ : ∃ m, n = m + 1 := ⟨n - 1, by omega⟩
  rw [loadWords, readWords_quiet h, countAccess_n_s]
  rfl

/-- A block store over a quiet interface goes on with the words stored (R85). -/
theorem storeWords_quiet {ws : List Word} (hn : ws ≠ []) {a : Word} {k : State → Out} {s : State}
    (h : QuietWords .write ws.length a s) :
    storeWords ws a k s = k { settled (spend 1 (ws.length - 1) 0 0 s) with mem := storeAll ws a s.mem } := by
  cases ws with
  | nil => exact absurd rfl hn
  | cons w ws =>
    rw [storeWords, writeWords_quiet h, countAccess_n_s]
    rfl

/-- The word for r15 is the last one. -/
theorem pcWord_wordsAt {list : BitVec 16} (h : list.getLsbD 15 = true) (m : Memory) (a : Word) :
    pcWord (wordsAt m (countBelow list 16) a) = portLoad m .word (wordOf list a 15) := by
  rw [countBelow_succ list 15, h]
  simp [pcWord, wordsAt, wordOf, List.range_succ]

/-! ### The registers written -/

theorem readReg_writeLoaded {n : Nat} (hn : n ≤ 16) (list : BitVec n) (m : Memory) (a : Word) (s : State) {r : RegNum}
    (hr : r ≠ 15#4) : readReg (writeLoaded (listRegs list) (wordsAt m (countBelow list n) a) s) r =
      if list.getLsbD r.toNat then portLoad m .word (wordOf list a r.toNat) else readReg s r := by
  cases h : list.getLsbD r.toNat with
  | true =>
    refine readReg_writeLoaded_get (listRegs_nodup hn list) hr ?_ (wordsAt_get m a (countBelow_lt h))
    rw [listRegs_get h, BitVec.ofNat_toNat, BitVec.setWidth_eq]
  | false => exact readReg_writeLoaded_other (by rw [mem_listRegs hn, h]; decide)

theorem readReg_writeBack (w : Bool) (rn : RegNum) (adr : Address) (s : State) {r : RegNum} (hr : r ≠ 15#4) :
    readReg (writeBack (wbOf w rn adr) s) r = if w = true ∧ r = rn then adr.moved else readReg s r := by
  rw [writeBack_wbOf]
  by_cases h : r = rn
  · subst h
    cases w with
    | true => simp [readReg_writeReg_same s hr]
    | false => simp
  · cases w with
    | true => simp [h, readReg_writeReg_other s h]
    | false => simp

/-- Only the registers change. -/
theorem writeBack_eq (wb : Option (RegNum × Word)) (s : State) :
    writeBack wb s = { s with regs := (writeBack wb s).regs } := by
  cases wb with
  | none => rfl
  | some w => exact writeBank_eq ..

theorem readPhys_writeBack_other (wb : Option (RegNum × Word)) {s : State} {p : PhysReg}
    (h : ∀ r, physOf s.cpsr.m.bank r ≠ some p) : readPhys (writeBack wb s).regs p = readPhys s.regs p := by
  cases wb with
  | none => rfl
  | some w => exact readPhys_writeReg_other s w.1 w.2 (h w.1)

theorem writeLoadedUser_eq (rs : List RegNum) (ws : List Word) (s : State) :
    writeLoadedUser rs ws s = { s with regs := (writeLoadedUser rs ws s).regs } := by
  induction rs generalizing ws s with
  | nil => rfl
  | cons r rs ih =>
    cases ws with
    | nil => rfl
    | cons w ws =>
      have h : writeUser s r w = { s with regs := (writeUser s r w).regs } := writeBank_eq ..
      simp only [writeLoadedUser]
      rw [ih, h]

theorem writeLoadedUser_pc (rs : List RegNum) (ws : List Word) (s : State) : (writeLoadedUser rs ws s).pc = s.pc := by
  rw [writeLoadedUser_eq]

theorem writeLoadedUser_cpsr (rs : List RegNum) (ws : List Word) (s : State) : (writeLoadedUser rs ws s).cpsr = s.cpsr := by
  rw [writeLoadedUser_eq]

/-- A state in USER mode, whose view is the User bank. -/
def asUser (s : State) : State := { s with cpsr := { s.cpsr with m := .user } }

theorem readReg_asUser (s : State) (r : RegNum) : readReg (asUser s) r = readUser s r := readBank_congr rfl rfl rfl _ r

/-- The User bank is written as USER mode writes its view (R26). -/
theorem asUser_writeLoadedUser (rs : List RegNum) (ws : List Word) (s : State) :
    asUser (writeLoadedUser rs ws s) = writeLoaded rs ws (asUser s) := by
  induction rs generalizing ws s with
  | nil => rfl
  | cons r rs ih =>
    cases ws with
    | nil => rfl
    | cons w ws =>
      have h : asUser (writeUser s r w) = writeReg (asUser s) r w := by
        unfold writeUser writeReg writeBank asUser
        dsimp only
        split <;> rfl
      simp only [writeLoadedUser, writeLoaded, ih, h]

theorem readUser_writeLoadedUser {n : Nat} (hn : n ≤ 16) (list : BitVec n) (m : Memory) (a : Word) (s : State) {r : RegNum}
    (hr : r ≠ 15#4) : readUser (writeLoadedUser (listRegs list) (wordsAt m (countBelow list n) a) s) r =
      if list.getLsbD r.toNat then portLoad m .word (wordOf list a r.toNat) else readUser s r := by
  rw [← readReg_asUser, asUser_writeLoadedUser, readReg_writeLoaded hn _ _ _ _ hr, readReg_asUser]

/-- A physical register that no listed number names in the User bank keeps its value. -/
theorem readPhys_writeLoadedUser_other {rs : List RegNum} {ws : List Word} {s : State} {p : PhysReg}
    (h : ∀ r ∈ rs, physOf 0 r ≠ some p) : readPhys (writeLoadedUser rs ws s).regs p = readPhys s.regs p := by
  induction rs generalizing ws s with
  | nil => rfl
  | cons r rs ih =>
    cases ws with
    | nil => rfl
    | cons w ws =>
      rw [List.forall_mem_cons] at h
      exact (ih h.2).trans (readPhys_writeBank_other s 0 w h.1)

/-! ### LDM -/

section
variable {list : BitVec 16} {start : Word} {wb : Option (RegNum × Word)} {s : State}

/-- The state after an LDM(1) or LDM(3) of the listed registers from `start` on, but for the pc and the status: one N and
n - 1 S cycles and those of the row, the base written back, the words written. -/
def loadedBlock (list : BitVec 16) (start : Word) (wb : Option (RegNum × Word)) (s : State) : State :=
  writeLoaded (listRegs list) (wordsAt s.mem (countBelow list 16) start)
    (writeBack wb (charges s.params.cycles.loadMultiple (settled (spend 1 (countBelow list 16 - 1) 0 0 s))))

theorem loadedBlock_eq : loadedBlock list start wb s =
    { charges s.params.cycles.loadMultiple (settled (spend 1 (countBelow list 16 - 1) 0 0 s)) with
      regs := (loadedBlock list start wb s).regs } := by
  unfold loadedBlock
  rw [writeLoaded_eq, writeBack_eq]

theorem loadedBlock_pc : (loadedBlock list start wb s).pc = s.pc := by
  rw [loadedBlock_eq]; simp [settled, spend]

theorem loadedBlock_cpsr : (loadedBlock list start wb s).cpsr = s.cpsr := by
  rw [loadedBlock_eq]; simp [settled, spend]

/-- A register of the view after an LDM: its word, the base written back, or what it held (R311). -/
theorem readReg_loadedBlock (w : Bool) (rn : RegNum) (adr : Address) {r : RegNum} (hr : r ≠ 15#4) :
    readReg (loadedBlock list start (wbOf w rn adr) s) r =
      if list.getLsbD r.toNat then portLoad s.mem .word (wordOf list start r.toNat)
      else if w = true ∧ r = rn then adr.moved else readReg s r := by
  unfold loadedBlock
  rw [readReg_writeLoaded (by decide) _ _ _ _ hr, readReg_writeBack _ _ _ _ hr,
    readReg_congr (s := s) (by simp [settled, spend]) (by simp [settled, spend]) (by simp [settled, spend])]

theorem readPhys_loadedBlock_other {p : PhysReg} (h : ∀ r, physOf s.cpsr.m.bank r ≠ some p) :
    readPhys (loadedBlock list start wb s).regs p = readPhys s.regs p := by
  have hc : (charges s.params.cycles.loadMultiple (settled (spend 1 (countBelow list 16 - 1) 0 0 s))).cpsr = s.cpsr :=
    charges_cpsr ..
  unfold loadedBlock
  rw [readPhys_writeLoaded_other (by rw [writeBack_cpsr, hc]; exact h), readPhys_writeBack_other _ (by rw [hc]; exact h),
    charges_regs]
  rfl

end

/-- Settles O27: the reads give the words in the order of the list (`loadedBlock`), and the end is a jump to the last of them or
the plain advance. -/
theorem loadMultiple : Obligations.loadMultiple := by
  unfold Obligations.loadMultiple
  intro f s hc hf ha n start hq
  have hn : 0 < n := countBelow_pos (list_ne_zero hf)
  refine ⟨loadedBlock f.list start (wbOf f.w f.rn (addrBlock f s)) s, loadedBlock_eq, fun r hr => ?_,
    fun p hp => readPhys_loadedBlock_other hp, ?_⟩
  · rw [readReg_loadedBlock _ _ _ hr, addrBlock_moved]
  · have he : exec (.ldm1 f) s = if f.list.getLsbD 15
        then jump (pcWord (wordsAt s.mem n start)) (loadedBlock f.list start (wbOf f.w f.rn (addrBlock f s)) s)
        else advance (loadedBlock f.list start (wbOf f.w f.rn (addrBlock f s)) s) := by
      rw [exec_ldm1, execLdm1, guarded_pass hc (by exact hf), listRegs_length, addrBlock_start, loadWords_quiet hn hq]
      rfl
    rw [he]
    split
    · rename_i h
      rw [pcWord_wordsAt h, jump_eq, loadedBlock_cpsr]
    · rename_i h
      exact advance_next ((ha (by simpa using h)).congr loadedBlock_pc (by rw [loadedBlock_cpsr]))

/-- Settles O29: LDM(3) loads the block of its 16-bit list and ends as an operation on r15 with S = 1 does. -/
theorem loadMultipleReturn : Obligations.loadMultipleReturn := by
  unfold Obligations.loadMultipleReturn
  intro f s hc hf n start hq
  have h15 : (returnList f).getLsbD 15 = true := by simp [returnList]
  have hn : 0 < n := (Nat.zero_le _).trans_lt (countBelow_lt h15)
  refine ⟨loadedBlock (returnList f) start (wbOf f.w f.rn (addrBlockUser (listRegs (returnList f)) f s)) s, loadedBlock_eq,
    fun r hr => ?_, fun p hp => readPhys_loadedBlock_other hp, ?_⟩
  · rw [readReg_loadedBlock _ _ _ hr, addrBlockUser_moved, returnList_getLsbD f hr]
  · rw [exec_ldm3, execLdm3, guarded_pass hc (by exact hf), ← listRegs_returnList, listRegs_length, addrBlockUser_start,
      loadWords_quiet hn hq, pcWord_wordsAt h15, exceptionReturn_eq_toPc]
    rfl

/-- Settles O28: the words go to the User bank as USER mode would write them (`asUser_writeLoadedUser`). -/
theorem loadMultipleUser : Obligations.loadMultipleUser := by
  unfold Obligations.loadMultipleUser
  intro f s hc hf n start
  have he : exec (.ldm2 f) s = if s.cpsr.m.hasSpsr then loadWords n start (fun ws s1 =>
      advance (writeLoadedUser (listRegs f.list) ws (loadCycles s1))) s else .refused .userBankMode := by
    rw [exec_ldm2, execLdm2, guarded_pass hc (by exact hf), userRegs, listRegs_length, addrBlockUser_start]
  refine ⟨fun h => ?_, fun hu hs ha hq => ?_⟩
  · rw [he, if_neg fun hm => (hasSpsr_iff _).1 hm h]
  · have hn : 0 < n := countBelow_pos (list_ne_zero hf)
    rw [he, if_pos ((hasSpsr_iff _).2 (not_or.2 ⟨hu, hs⟩)), loadWords_quiet hn hq]
    refine ⟨_, advance_next (ha.congr ?_ ?_), writeLoadedUser_eq .., fun r hr => ?_, fun p hp => ?_⟩
    · rw [writeLoadedUser_pc, loadCycles_pc]; rfl
    · rw [writeLoadedUser_cpsr, loadCycles_cpsr]; rfl
    · have h15 : r ≠ 15#4 := by rintro rfl; exact absurd (BitVec.lt_of_getLsbD hr) (by decide)
      rw [readUser_writeLoadedUser (by decide) _ _ _ _ h15, if_pos hr]
    · rw [readPhys_writeLoadedUser_other fun r hr => hp r ((mem_listRegs (by decide) _ r).1 hr), loadCycles_regs]
      rfl

/-! ### STM -/

section
variable {n j : Nat} {list : BitVec n} {v : RegNum → Word} {value : Nat → Word} {a : Word} {s t : State}

/-- The word of a listed register is at its place. -/
theorem map_listRegs_get (hv : ∀ r, list.getLsbD r = true → v (BitVec.ofNat 4 r) = value r) {r : Nat}
    (h : list.getLsbD r = true) : ((listRegs list).map v)[countBelow list r]? = some (value r) := by
  rw [List.getElem?_map, listRegs_get h, Option.map_some, hv r h]

theorem map_listRegs_length (list : BitVec n) (v : RegNum → Word) : ((listRegs list).map v).length = countBelow list n := by
  rw [List.length_map, listRegs_length]

/-- The first words of a store of the listed registers hold their values. -/
theorem storedBefore_storeAll (hn : n ≤ 16) (hw : s.mem.wf = true)
    (hv : ∀ r, list.getLsbD r = true → v (BitVec.ofNat 4 r) = value r)
    (h : t.mem = storeAll (((listRegs list).map v).take j) a s.mem) : StoredBefore list a j value t := by
  intro r hr hj k hk
  rw [h]
  refine memGet_storeAll_word hw ?_ ?_ hk
  · exact (List.length_take_le' _ _).trans ((map_listRegs_length list v).trans_le ((countBelow_le list n).trans hn))
  · rw [List.getElem?_take_of_lt hj, map_listRegs_get hv hr]

/-- A store of all the listed registers. -/
theorem storedList_storeAll (hn : n ≤ 16) (hw : s.mem.wf = true)
    (hv : ∀ r, list.getLsbD r = true → v (BitVec.ofNat 4 r) = value r)
    (h : t.mem = storeAll ((listRegs list).map v) a s.mem) : StoredList list a value s t := by
  have hl := map_listRegs_length list v
  refine ⟨fun r hr => ?_, fun x hx => ?_⟩
  · exact storedBefore_storeAll (j := countBelow list n) hn hw hv (by rw [h, ← hl, List.take_length]) r hr (countBelow_lt hr)
  · rw [h]
    exact memGet_storeAll_other hw (by rwa [hl])

end

theorem ofNat_eq_pc {r : Nat} (h : r < 16) : BitVec.ofNat 4 r = 15#4 ↔ r = 15 := by
  rw [BitVec.toNat_eq]; simp; omega

/-- The value STM stores for a register number (R312). -/
theorem storeValue_ofNat (s : State) {r : Nat} (h : r < 16) : storeValue s (BitVec.ofNat 4 r) =
    if r = 15 then s.pc + pcOffset s.params.storePcOffset else readReg s (BitVec.ofNat 4 r) := by
  simp only [storeValue, ofNat_eq_pc h]

theorem storeValueUser_ofNat (s : State) {r : Nat} (h : r < 16) : storeValueUser s (BitVec.ofNat 4 r) =
    if r = 15 then s.pc + pcOffset s.params.storePcOffset else readUser s (BitVec.ofNat 4 r) := by
  simp only [storeValueUser, ofNat_eq_pc h]

/-- The state after a store of the listed registers from `a` on, before the cycles of the row. -/
def storedBlock {n : Nat} (list : BitVec n) (v : RegNum → Word) (a : Word) (s : State) : State :=
  { settled (spend 1 (countBelow list n - 1) 0 0 s) with mem := storeAll ((listRegs list).map v) a s.mem }

theorem storeWords_listRegs {n : Nat} {list : BitVec n} (hl : list ≠ 0#n) {v : RegNum → Word} {a : Word}
    {k : State → Out} {s : State} (h : QuietWords .write (countBelow list n) a s) :
    storeWords ((listRegs list).map v) a k s = k (storedBlock list v a s) := by
  have e := map_listRegs_length list v
  have hn := countBelow_pos hl
  rw [storeWords_quiet (List.ne_nil_of_length_pos (by rwa [e])) (by rwa [e]), e]
  rfl

/-- Settles O30: both forms store the words of the list in place (`storedBlock`), each with its own value of a register. -/
theorem storeMultiple : Obligations.storeMultiple := by
  unfold Obligations.storeMultiple
  intro f s hc hw n start pcValue
  have hu (hf : (Instr.stm2 f).restriction = none) : exec (.stm2 f) s = if s.cpsr.m.hasSpsr then
      storeWords ((listRegs f.list).map (storeValueUser s)) start (fun s1 => advance (storeCycles s1)) s
      else .refused .userBankMode := by
    rw [exec_stm2, execStm2, guarded_pass hc (by exact hf), addrBlock_start]
  refine ⟨fun hf ha hq => ?_, fun hf h => ?_, fun hf hu' hs ha hq => ?_⟩
  · refine ⟨storedBlock f.list (storeValue s) start s, storedList_storeAll (by decide) hw (fun r hr => ?_) rfl, rfl, ?_⟩
    · exact storeValue_ofNat s (BitVec.lt_of_getLsbD hr)
    · have h1 : CanAdvance (storedBlock f.list (storeValue s) start s) := ha
      rw [exec_stm1, execStm1, guarded_pass hc (by exact hf), addrBlock_start,
        storeWords_listRegs (list_ne_zero hf) hq, storeCycles, advance_next ((h1.charges _).writeBack _),
        writeBack_wbOf, addrBlock_moved]
      rfl
  · rw [hu hf, if_neg fun hm => (hasSpsr_iff _).1 hm h]
  · refine ⟨storedBlock f.list (storeValueUser s) start s, storedList_storeAll (by decide) hw (fun r hr => ?_) rfl, rfl, ?_⟩
    · exact storeValueUser_ofNat s (BitVec.lt_of_getLsbD hr)
    · have h1 : CanAdvance (storedBlock f.list (storeValueUser s) start s) := ha
      rw [hu hf, if_pos ((hasSpsr_iff _).2 (not_or.2 ⟨hu', hs⟩)), storeWords_listRegs (list_ne_zero hf) hq]
      exact advance_next (h1.charges _)

end Sys2Proof.Machine
end

section
/-! A block transfer whose word aborts (spec/46_arm_block_transfer.md R319; spec/49_thumb_memory_branch.md R418 to R421), said
once for the loads and stores of both instruction sets. -/

namespace Sys2Proof.Machine

/-! ### The words before the one that aborts -/

/-- The next word of a block (R310). -/
theorem block_succ (a : Word) (i : Nat) :
    a + BitVec.ofNat 32 (4 * (i + 1)) = a + 4#32 + BitVec.ofNat 32 (4 * i) := by
  rw [Nat.mul_add, BitVec.ofNat_add, BitVec.add_comm (BitVec.ofNat 32 (4 * i)), ← BitVec.add_assoc]

section
variable {k : Access} {j n : Nat} {c : Cls} {a : Word} {ws : List Word} {s t : State}

theorem QuietWords.head (h : QuietWords k (j + 1) a s) : QuietAt k .word a s := by
  simpa using h 0 (Nat.succ_pos j)

theorem QuietWords.tail (h : QuietWords k (j + 1) a s) (e : t.collab = s.collab) : QuietWords k j (a + 4#32) t :=
  fun i hi => QuietAt.congr (by rw [← block_succ]; exact h (i + 1) (Nat.succ_lt_succ hi)) e

/-- The abort of word `j + 1`, as that of word `j` of what follows a first word that went well; a word is of class `c` when it
is the first, and S after it. -/
theorem AbortsAt.tail (h : AbortsAt (if j + 1 = 0 then c else .s) k .word (a + BitVec.ofNat 32 (4 * (j + 1))) s)
    (e : t.collab = s.collab) : AbortsAt (if j = 0 then .s else .s) k .word (a + 4#32 + BitVec.ofNat 32 (4 * j)) t := by
  rw [if_neg (Nat.succ_ne_zero j), block_succ] at h
  rw [ite_self]
  exact h.congr e

/-- The state in which word `j` of a block has aborted, its memory `m`: an access of class `c` and `j` of class S are
counted. -/
def abortedWord (c : Cls) (j : Nat) (a : Word) (m : Memory) (s : State) : State :=
  { countAccess .s j (countAccess c 1 s) with
    mem := m
    fault := { s.fault with aborted := some .data, abortAddr := a + BitVec.ofNat 32 (4 * j) } }

theorem abortedWord_zero : abortedWord c 0 a s.mem s =
    { countAccess c 1 s with fault := { s.fault with aborted := some .data, abortAddr := a } } := by
  cases c <;> simp [abortedWord, countAccess]

/-- Word `j` of what follows a first word is word `j + 1`. -/
theorem abortedWord_succ (m m' : Memory) :
    abortedWord .s j (a + 4#32) m { countAccess c 1 s with fault := clean s.fault, mem := m' } =
      abortedWord c (j + 1) a m s := by
  cases c <;> simp [abortedWord, countAccess, clean, block_succ] <;> omega

theorem abortedWord_n (m : Memory) : abortedWord .n j a m s = { spend 1 j 0 0 s with
    mem := m, fault := { s.fault with aborted := some .data, abortAddr := a + BitVec.ofNat 32 (4 * j) } } := by
  rw [abortedWord, countAccess_n_s]

theorem readWords_aborts (hj : j < n) (hq : QuietWords .read j a s)
    (ha : AbortsAt (if j = 0 then c else .s) .read .word (a + BitVec.ofNat 32 (4 * j)) s) :
    readWords n c a s = .abort (abortedWord c j a s.mem s) := by
  induction j generalizing n c a s with
  | zero =>
    cases n with
    | zero => exact absurd hj (Nat.lt_irrefl 0)
    | succ n => rw [readWords, memRead_aborts (by simpa using ha), abortedWord_zero]
  | succ j ih =>
    cases n with
    | zero => exact absurd hj (Nat.not_lt_zero _)
    | succ n =>
      have e : ({ countAccess c 1 s with fault := clean s.fault, mem := s.mem } : State).collab = s.collab :=
        countAccess_collab ..
      rw [readWords, memRead_quiet hq.head]
      simp only [ih (Nat.lt_of_succ_lt_succ hj) (hq.tail e) (ha.tail e), countAccess_mem, abortedWord_succ]

theorem writeWords_aborts (hj : j < ws.length) (hq : QuietWords .write j a s)
    (ha : AbortsAt (if j = 0 then c else .s) .write .word (a + BitVec.ofNat 32 (4 * j)) s) :
    writeWords ws c a s = .abort (abortedWord c j a (storeAll (ws.take j) a s.mem) s) := by
  induction j generalizing ws c a s with
  | zero =>
    cases ws with
    | nil => exact absurd hj (Nat.lt_irrefl 0)
    | cons w ws => rw [writeWords, memWrite_aborts (by simpa using ha), List.take_zero, storeAll, abortedWord_zero]
  | succ j ih =>
    cases ws with
    | nil => exact absurd hj (Nat.not_lt_zero _)
    | cons w ws =>
      have e : ({ countAccess c 1 s with fault := clean s.fault, mem := portStore s.mem .word a w } : State).collab =
        s.collab := countAccess_collab ..
      rw [writeWords, memWrite_quiet hq.head]
      simp only [ih (Nat.lt_of_succ_lt_succ hj) (hq.tail e) (ha.tail e), abortedWord_succ, List.take_succ_cons, storeAll]

end

/-! ### Every block transfer -/

/-- The words a block store stores, in their order (R312, R316, R418, R420). -/
def blockValues : Instr → State → List Word
  | .stm1 f, s => (listRegs f.list).map (storeValue s)
  | .stm2 f, s => (listRegs f.list).map (storeValueUser s)
  | .tPush f, s => (listRegs (pushList f)).map (readReg s)
  | .tStmia f, s => (listRegs f.list).map (readReg s)
  | _, _ => []

/-- What a block transfer that is ready does from its lowest address on: it reads a number of words, or writes words. -/
inductive MovesBlock (s : State) (a : Word) : Access → Nat → List Word → Out → Prop
  | load (n : Nat) (k : List Word → State → Out) : MovesBlock s a .read n [] (loadWords n a k s)
  | store (ws : List Word) (k : State → Out) : MovesBlock s a .write ws.length ws (storeWords ws a k s)

/-- The registers of PUSH are those of its 16-bit list (R418). -/
theorem listRegs_pushList (f : T14) : listRegs (pushList f) = pushRegs f := by
  rw [pushList, pushRegs, listRegs_or (by decide) f.list (by cases f.r <;> decide)]
  cases f.r <;> rfl

/-- PUSH never stores the pc. -/
theorem pushList_getLsbD_pc (f : T14) : (pushList f).getLsbD 15 = false := by
  unfold pushList; cases f.r <;> simp

/-- The registers of POP are those of its 16-bit list (R419). -/
theorem listRegs_popList (f : T14) : listRegs (popList f) = popRegs f := by
  rw [popList, popRegs, listRegs_or (by decide) f.list (by cases f.r <;> decide)]
  cases f.r <;> rfl

theorem pushStart_eq (f : T14) (s : State) :
    pushStart f s = readReg s spNum - BitVec.ofNat 32 (4 * countBelow (pushList f) 16) := by
  rw [pushStart, ← listRegs_pushList, listBytes_listRegs]

/-- A store of the listed registers. -/
theorem MovesBlock.store_listRegs {m : Nat} {list : BitVec m} {v : RegNum → Word} {s : State} {a : Word}
    (k : State → Out) : MovesBlock s a .write (countBelow list m) ((listRegs list).map v)
      (storeWords ((listRegs list).map v) a k s) := by
  have h := MovesBlock.store (a := a) (s := s) ((listRegs list).map v) k
  rwa [map_listRegs_length] at h

/-- Every block transfer that is ready moves the words of its list. -/
theorem exec_movesBlock {i : Instr} {k : Access} {n : Nat} {a : Word} {s : State} (h : i.block s = some (k, n, a))
    (hr : i.Ready s) (hu : (∃ f, i = .ldm2 f) ∨ (∃ f, i = .stm2 f) → s.cpsr.m.hasSpsr = true) :
    MovesBlock s a k n (blockValues i s) (exec i s) := by
  obtain ⟨hf, hc⟩ := hr
  cases i with
  | ldm1 f =>
    cases h
    rw [exec_ldm1, execLdm1, guarded_pass (hc _ rfl) (by exact hf), listRegs_length, addrBlock_start]
    exact .load ..
  | ldm2 f =>
    cases h
    rw [exec_ldm2, execLdm2, guarded_pass (hc _ rfl) (by exact hf), if_pos (hu (.inl ⟨f, rfl⟩)), userRegs, listRegs_length,
      addrBlockUser_start]
    exact .load ..
  | ldm3 f =>
    cases h
    have hl : countBelow f.list 15 + 1 = countBelow (returnList f) 16 := by
      rw [← listRegs_length, ← listRegs_length, listRegs_returnList, returnRegs, List.length_append]; rfl
    rw [exec_ldm3, execLdm3, guarded_pass (hc _ rfl) (by exact hf), ← listRegs_returnList, listRegs_length,
      addrBlockUser_start, hl]
    exact .load ..
  | stm1 f =>
    cases h
    rw [exec_stm1, execStm1, guarded_pass (hc _ rfl) (by exact hf), addrBlock_start]
    exact .store_listRegs _
  | stm2 f =>
    cases h
    rw [exec_stm2, execStm2, guarded_pass (hc _ rfl) (by exact hf), if_pos (hu (.inr ⟨f, rfl⟩)), addrBlock_start]
    exact .store_listRegs _
  | tPush f =>
    cases h
    rw [exec_tPush, execTPush, checked_pass (by exact hf), ← listRegs_pushList, pushStart_eq]
    exact .store_listRegs _
  | tPop f =>
    cases h
    rw [exec_tPop, execTPop, checked_pass (by exact hf), ← listRegs_popList, listRegs_length]
    exact .load ..
  | tStmia f =>
    cases h
    rw [exec_tStmia, execTStmia, checked_pass (by exact hf)]
    exact .store_listRegs _
  | tLdmia f =>
    cases h
    rw [exec_tLdmia, execTLdmia, checked_pass (by exact hf), listRegs_length]
    exact .load ..
  | _ => cases h

section
variable {s : State} {a : Word} {k : Access} {n j : Nat} {ws : List Word} {o : Out}

theorem MovesBlock.values_of_read (h : MovesBlock s a k n ws o) (hk : k = .read) : ws = [] := by
  cases h with
  | load => rfl
  | store => cases hk

/-- A block transfer whose word `j` aborts raises the Data Abort with the words before it stored and nothing else
written (R319). -/
theorem MovesBlock.aborts (h : MovesBlock s a k n ws o) (hj : j < n) (hq : QuietWords k j a s)
    (ha : AbortsAt (if j = 0 then .n else .s) k .word (a + BitVec.ofNat 32 (4 * j)) s) :
    o = raise .dataAbort (abortedWord .n j a (storeAll (ws.take j) a s.mem) s) := by
  cases h with
  | load n k => rw [loadWords, readWords_aborts hj hq ha, List.take_nil, storeAll]
  | store ws k => rw [storeWords, writeWords_aborts hj hq ha]

end

/-- Settles O31: every block transfer moves the words of its list in place (`exec_movesBlock`), and stops at the one that
aborts. -/
theorem blockAborts : Obligations.blockAborts := by
  unfold Obligations.blockAborts
  intro i k n a j s hi hr hu hj hw hq ha
  have hm := exec_movesBlock hi hr hu
  have hb {m : Nat} {list : BitVec m} {v : RegNum → Word} {value : Nat → Word} (hm : m ≤ 16)
      (hv : ∀ r, list.getLsbD r = true → v (BitVec.ofNat 4 r) = value r)
      (hi : blockValues i s = (listRegs list).map v) :
      StoredBefore list a j value (abortedWord .n j a (storeAll ((blockValues i s).take j) a s.mem) s) :=
    storedBefore_storeAll hm hw hv (by rw [hi]; rfl)
  refine ⟨_, hm.aborts hj hq ha, abortedWord_n _, fun hk x => ?_, ⟨?_, ?_, ?_, ?_⟩,
    fun x hx => memGet_storeAll_other hw fun l hl => hx l (hl.trans_le (List.length_take_le ..))⟩
  · rw [hm.values_of_read hk, List.take_nil]; rfl
  · rintro f rfl
    exact hb (by decide) (fun r hr => storeValue_ofNat s (BitVec.lt_of_getLsbD hr)) rfl
  · rintro f rfl
    exact hb (by decide) (fun r hr => storeValueUser_ofNat s (BitVec.lt_of_getLsbD hr)) rfl
  · rintro f rfl
    refine hb (by decide) (fun r hr => (if_neg ?_).symm) rfl
    rintro rfl
    rw [pushList_getLsbD_pc] at hr
    cases hr
  · rintro f rfl
    refine hb (by decide) (fun r hr => (if_neg ?_).symm) rfl
    rintro rfl
    exact absurd (BitVec.lt_of_getLsbD hr) (by decide)

end Sys2Proof.Machine
end

section
/-! SWI and the undefined words (spec/47_arm_coprocessor_swi_undefined.md R335, R340, R341; spec/49_thumb_memory_branch.md R431,
R445), the words that have no meaning, and a coprocessor instruction on an unbound slot (R322). -/

namespace Sys2Proof.Machine

theorem isz_charges (row : Cycles) (s : State) : isz (charges row s) = isz s := by rw [isz, charges_cpsr, isz]

theorem trap_entered {e : Exc} {s : State} (h : caught e s = false) :
    trap e s = .next (enter true e (charges s.params.cycles.trap s)) := by
  rw [trap, if_neg (by rw [h]; exact Bool.false_ne_true)]

/-- Both of these exceptions return to the next instruction and leave F as it is (R470, R472). -/
theorem enter_nextReturn {e : Exc} (h : e = .swi ∨ e = .undefined) (s : State) :
    enter true e s = entered e.mode e.vector (s.pc + isz s) s.cpsr.f s := by
  have hn : e ≠ .reset := by obtain rfl | rfl := h <;> decide
  have hf : (s.cpsr.f || e == .fiq) = s.cpsr.f := by obtain rfl | rfl := h <;> exact Bool.or_false _
  have hr : returnValue true e s = s.pc + isz s := by obtain rfl | rfl := h <;> rfl
  rw [enter_eq true hn, hf, hr]

theorem trap_nextReturn {e : Exc} (h : e = .swi ∨ e = .undefined) {s : State} (hc : caught e s = false) :
    trap e s = .next (entered e.mode e.vector (s.pc + isz s) s.cpsr.f (charges s.params.cycles.trap s)) := by
  rw [trap_entered hc, enter_nextReturn h, charges_pc, charges_cpsr, isz_charges]

theorem trap_swi {s : State} (hc : caught .swi s = false) :
    trap .swi s = .next (entered .svc 8#32 (s.pc + isz s) s.cpsr.f (charges s.params.cycles.trap s)) :=
  trap_nextReturn (.inl rfl) hc

theorem trap_undefined {s : State} (hc : caught .undefined s = false) :
    trap .undefined s = .next (entered .undef 4#32 (s.pc + isz s) s.cpsr.f (charges s.params.cycles.trap s)) :=
  trap_nextReturn (.inr rfl) hc

/-- Condition 1111 names no condition (spec/30_encoding.md R128). -/
theorem decodeArm_condNever {w : Word} (h : w.extractLsb' 28 4 = 0b1111#4) : decodeArm w = .never := by
  have hf : field w 28 4 = 0b1111#4 := h
  rw [decodeArm, hf]
  rfl

/-- Settles O5: SWI and every undefined word go through `trap`, once their condition has passed. -/
theorem swiAndUndefined : Obligations.swiAndUndefined := by
  unfold Obligations.swiAndUndefined
  refine ⟨fun f s hc hm => (guarded_pass hc rfl).trans (trap_swi hm), fun f s hm => trap_swi hm,
    fun f s hc hm => (guarded_pass hc rfl).trans (trap_undefined hm),
    fun c s hc hm => (guarded_pass hc rfl).trans (trap_undefined hm), fun s hm => trap_undefined hm,
    fun c s hc => guarded_pass (body := fun _ => .refused .nearMatch) hc rfl, fun s => rfl, fun w s h => ?_⟩
  rw [decodeArm_condNever h]
  rfl

/-- The coprocessor instructions: the condition, the slot, and the call of the handler each begins with (R320). -/
inductive CallsHandler (s : State) : Instr → Cond → BitVec 4 → HandlerCall → Prop
  | cdp (f : CpDp) : CallsHandler s (.cdp f) f.cond f.cp (.cdp (encCpDp f))
  | mrc (f : CpRt) : CallsHandler s (.mrc f) f.cond f.cp (.mrc (encCpRt 1#1 f))
  | mcr (f : CpRt) : CallsHandler s (.mcr f) f.cond f.cp (.mcr (encCpRt 0#1 f) (storeValue s f.rd))
  | ldc (f : CpLs) : CallsHandler s (.ldc f) f.cond f.cp (.ldc (encCpLs 1#1 f))
  | stc (f : CpLs) : CallsHandler s (.stc f) f.cond f.cp (.stc (encCpLs 0#1 f))

section
variable {s : State} {i : Instr} {c : Cond} {cp : BitVec 4} {call : HandlerCall} {k : CoprocAnswer → Out} {h : Handler}

/-- Once its condition has passed, each of them is the common head `withHandler` and a part of its own. -/
theorem CallsHandler.exec (hi : CallsHandler s i c cp call) (hc : conditionPassed c s.cpsr = true) :
    ∃ k, exec i s = withHandler cp call k s := by
  cases hi with
  | cdp f => exact ⟨_, (exec_cdp f s).trans (guarded_pass hc rfl)⟩
  | mrc f => exact ⟨_, (exec_mrc f s).trans (guarded_pass hc rfl)⟩
  | mcr f => exact ⟨_, (exec_mcr f s).trans (guarded_pass hc rfl)⟩
  | ldc f => exact ⟨_, (exec_ldc f s).trans (guarded_pass hc rfl)⟩
  | stc f => exact ⟨_, (exec_stc f s).trans (guarded_pass hc rfl)⟩

theorem withHandler_unbound (hu : s.coproc[cp.toFin] = .unbound) : withHandler cp call k s = raise .undefined s := by
  simp only [withHandler, hu]

theorem withHandler_notHandled (hb : s.coproc[cp.toFin] = .bound h) (ha : (callHandler cp h call s).result = .notHandled) :
    withHandler cp call k s = raise .undefined (callHandler cp h call s).state := by
  simp only [withHandler, hb, ha]

theorem withHandler_faultTriggered (hb : s.coproc[cp.toFin] = .bound h)
    (ha : (callHandler cp h call s).result = .faultTriggered) :
    withHandler cp call k s = faultTriggered (callHandler cp h call s).state := by
  simp only [withHandler, hb, ha]

end

/-- Settles O32: on an unbound slot every coprocessor instruction is `raise .undefined`. -/
theorem unboundCoprocessor : Obligations.unboundCoprocessor := by
  unfold Obligations.unboundCoprocessor
  intro i c cp s hi hc hu hm
  obtain ⟨call, hi⟩ : ∃ call, CallsHandler s i c cp call := by
    obtain ⟨f, rfl, rfl, rfl⟩ | ⟨f, rfl | rfl, rfl, rfl⟩ | ⟨f, rfl | rfl, rfl, rfl⟩ := hi
    · exact ⟨_, .cdp f⟩
    · exact ⟨_, .mrc f⟩
    · exact ⟨_, .mcr f⟩
    · exact ⟨_, .ldc f⟩
    · exact ⟨_, .stc f⟩
  obtain ⟨k, hk⟩ := hi.exec hc
  rw [hk, withHandler_unbound hu, raise_entered hm, enter_nextReturn (.inr rfl)]
  rfl

end Sys2Proof.Machine
end

section
/-! What a handler's answer does (spec/47_arm_coprocessor_swi_undefined.md R320 to R323), and CDP, MRC and MCR that are handled
(R324, R327, R328). -/

namespace Sys2Proof.Machine

/-! ### The answer -/

/-- The state in which a handler's script and record are as given. -/
def withSlot (cp : BitVec 4) (h : Handler) (s : State) : State := { s with coproc := s.coproc.set cp.toFin (.bound h) }

section
variable {s : State} {cp : BitVec 4} {h : Handler} {call : HandlerCall} {acts : List HandlerAction}

section
variable {choice : Choice CoprocReply} {rest : List (Choice CoprocReply)}

theorem callHandler_notHandled (hr : h.replies = choice :: rest) (hp : choice.pick call s = .notHandled) :
    callHandler cp h call s = {
      result := .notHandled, value := 0#32, words := 1
      state := withSlot cp { h with replies := rest, calls := call :: h.calls } s } := by
  simp only [callHandler, hr, hp, withSlot]

theorem callHandler_faultTriggered (hr : h.replies = choice :: rest) (hp : choice.pick call s = .faultTriggered acts) :
    callHandler cp h call s = {
      result := .faultTriggered, value := 0#32, words := 1
      state := acts.foldl (performHandler call) (withSlot cp { h with replies := rest, calls := call :: h.calls } s) } := by
  simp only [callHandler, hr, hp, withSlot]

theorem callHandler_handled {v : HandlerWord} {n : Fin 16} (hr : h.replies = choice :: rest)
    (hp : choice.pick call s = .handled acts v n) :
    callHandler cp h call s = {
      result := .handled, value := v.eval call s, words := n.val + 1
      state := acts.foldl (performHandler call) (withSlot cp { h with replies := rest, calls := call :: h.calls } s) } := by
  simp only [callHandler, hr, hp, withSlot]

end

theorem callData_scripted {choice : Choice DataReply} {rest : List (Choice DataReply)} (hb : s.coproc[cp.toFin] = .bound h)
    (hd : h.data = choice :: rest) :
    callData cp call s = ((choice.pick call s).word.eval call s, (choice.pick call s).acts.foldl (performHandler call)
      (withSlot cp { h with data := rest, calls := call :: h.calls } s)) := by
  simp only [callData, hb, hd, withSlot]

theorem performHandler_acc {a : HandlerAction} (ha : ∀ x y, a ≠ .setAcc x y) : (performHandler call s a).acc = s.acc := by
  cases a with
  | act a => exact perform_acc s a
  | abort addr => exact abortCall_acc ..
  | setAcc x y => exact absurd rfl (ha x y)

/-- Actions that do not set the accumulator leave it (spec/10_state.md R51). -/
theorem performs_acc (ha : ∀ x y, .setAcc x y ∉ acts) : (acts.foldl (performHandler call) s).acc = s.acc := by
  induction acts generalizing s with
  | nil => rfl
  | cons a acts ih =>
    have h1 : ∀ x y, a ≠ .setAcc x y := fun x y e => ha x y (e ▸ List.mem_cons_self ..)
    exact (ih fun x y hm => ha x y (List.mem_cons_of_mem _ hm)).trans (performHandler_acc h1)

/-- A scripted answer leaves the accumulator, unless one of its actions sets it. -/
theorem callHandler_acc {choice : Choice CoprocReply} {rest : List (Choice CoprocReply)} (hr : h.replies = choice :: rest)
    (ha : ∀ acts, (choice.pick call s = .faultTriggered acts ∨ ∃ v n, choice.pick call s = .handled acts v n) →
      ∀ x y, .setAcc x y ∉ acts) : (callHandler cp h call s).state.acc = s.acc := by
  cases hp : choice.pick call s with
  | notHandled => rw [callHandler_notHandled hr hp]; rfl
  | faultTriggered acts => rw [callHandler_faultTriggered hr hp]; exact performs_acc (ha acts (.inl hp))
  | handled acts v n => rw [callHandler_handled hr hp]; exact performs_acc (ha acts (.inr ⟨v, n, hp⟩))

theorem HandlerFrame.canAdvance {t : State} (h : HandlerFrame s t) (hs : CanAdvance s) : CanAdvance t :=
  hs.congr h.pc (by rw [h.cpsr])

/-- A fault-triggered answer takes the Data Abort, or only retires (R323). -/
theorem faultTriggered_next (hs : CanAdvance s) : faultTriggered s =
    if s.fault.aborted = some .data then .next (raiseState .dataAbort s) else .next (forward s) := by
  rw [faultTriggered, advance_next hs, raise]

end

/-- What a handler reads by `GetReg` and `GetSPSR` is what the two operations give (R321, spec/10_state.md R25, R41). -/
theorem getReg_getSpsr_eval (call : HandlerCall) (s : State) (m : Mode) (n : RegNum) (e : SpsrMode) :
    getReg m.number n s = some ((HandlerWord.reg m n).eval call s) ∧
      getSpsr e.mode.number s = some ((HandlerWord.spsr e).eval call s) := by
  refine ⟨by simp only [getReg, modeOfNumber_number, HandlerWord.eval], ?_⟩
  have he : e.mode.hasSpsr = true := by cases e <;> rfl
  rw [getSpsr_mode, if_pos he, HandlerWord.eval]

/-- Settles O33: the head of every coprocessor instruction is `withHandler`, and a scripted call is what its script says, within
the frame of a handler's call. -/
theorem coprocessorAnswers : Obligations.coprocessorAnswers := by
  unfold Obligations.coprocessorAnswers
  refine ⟨fun i w c cp h call s hi hw hc hs hb => ?_, fun cp h call s choice rest hr => ⟨fun hp => ?_, fun acts hp => ?_,
    fun acts v n hp => ?_, ?_⟩, fun cp h call s choice rest hb hd => ⟨callData_scripted hb hd, ?_⟩,
    fun call s x y yes no => rfl, getReg_getSpsr_eval⟩
  · have hi : CallsHandler s i c cp call := by
      obtain ⟨f, rfl, rfl, rfl, rfl⟩ | ⟨f, rfl, rfl, rfl, rfl⟩ | ⟨f, rfl, rfl, rfl, rfl⟩ | ⟨f, rfl, rfl, rfl, rfl⟩ |
        ⟨f, rfl, rfl, rfl, rfl⟩ := hi <;> cases hw
      · exact .cdp f
      · exact .mrc f
      · exact .mcr f
      · exact .ldc f
      · exact .stc f
    obtain ⟨k, hk⟩ := hi.exec hc
    rw [hk]
    exact ⟨withHandler_notHandled hb, fun ha => (withHandler_faultTriggered hb ha).trans
      (faultTriggered_next ((callHandler_frame cp h call s).canAdvance hs))⟩
  · rw [callHandler_notHandled hr hp]; exact ⟨rfl, rfl⟩
  · rw [callHandler_faultTriggered hr hp]; exact ⟨rfl, rfl⟩
  · rw [callHandler_handled hr hp]; exact ⟨rfl, rfl, rfl, rfl⟩
  · have f := callHandler_frame cp h call s
    exact ⟨f.regs, f.pc, f.cpsr, f.spsr, f.pipe, f.ctr, f.mem, callHandler_acc hr⟩
  · have f := callData_frame cp call s
    exact ⟨f.regs, f.pc, f.cpsr, f.spsr, f.pipe, f.ctr, f.mem⟩

/-! ### CDP, MRC and MCR -/

/-- The plain advance after a row's cycles. -/
theorem HandlerFrame.advance_charges {s t : State} (f : HandlerFrame s t) (hs : CanAdvance s) (row : CycleTable → Cycles) :
    advance (charges (row t.params.cycles) t) = .next (forward (charges (row s.params.cycles) t)) := by
  rw [f.params]
  exact advance_next ((f.canAdvance hs).charges _)

theorem forward_writeReg (s : State) (n : RegNum) (v : Word) : forward (writeReg s n v) = writeReg (forward s) n v := by
  unfold writeReg writeBank
  cases h : physOf s.cpsr.m.bank n with
  | none => simp only [forward, h]
  | some p => simp only [forward, h]; rfl

theorem advance_flagsOfWord {s : State} (hs : CanAdvance s) (v : Word) :
    advance (flagsOfWord v s) = .next { forward s with cpsr := { s.cpsr with
      n := v.getLsbD 31, z := v.getLsbD 30, c := v.getLsbD 29, v := v.getLsbD 28 } } :=
  advance_next (s := flagsOfWord v s) hs

/-- Settles O34: a handled call goes on in the state the handler left (`withHandler_handled`), whose core is the one before. -/
theorem coprocessorRegisters : Obligations.coprocessorRegisters := by
  unfold Obligations.coprocessorRegisters
  refine ⟨fun f w h s hw hc hs hb => ?_, fun f w h s hw hc hs hb => ?_, fun f w h s hw hc hs hb => ?_⟩ <;> cases hw <;>
    intro a
  · intro ha
    rw [exec_cdp, execCdp, guarded_pass hc rfl, withHandler_handled hb ha]
    exact (callHandler_frame ..).advance_charges hs CycleTable.cdp
  · intro s1 ha
    have fr := callHandler_frame f.cp h (.mrc (encCpRt 1#1 f)) s
    have hc1 := (fr.canAdvance hs).charges s.params.cycles.mrc
    rw [exec_mrc, execMrc, guarded_pass hc rfl, withHandler_handled hb ha]
    simp only [fr.params]
    split
    · rw [advance_flagsOfWord hc1, charges_cpsr, fr.cpsr]
    · rw [advance_next (hc1.writeReg _ _), forward_writeReg]
  · intro ha
    rw [exec_mcr, execMcr, guarded_pass hc rfl]
    exact (withHandler_handled hb ha).trans ((callHandler_frame ..).advance_charges hs CycleTable.mcr)

end Sys2Proof.Machine
end

section
/-! The record a handler keeps of its calls (spec/47_arm_coprocessor_swi_undefined.md R320), the address of LDC and STC (R331), and
LDC that is handled (R325). -/

namespace Sys2Proof.Machine

/-! ### The record of the calls -/

/-- The slot has a handler whose record is as given, the latest call first. -/
def Received (cp : BitVec 4) (calls : List HandlerCall) (s : State) : Prop :=
  ∃ h, s.coproc[cp.toFin] = .bound h ∧ h.calls = calls

section
variable {cp : BitVec 4} {calls : List HandlerCall} {s t : State}

theorem Received.congr (h : Received cp calls s) (e : t.coproc = s.coproc) : Received cp calls t := by
  unfold Received; rw [e]; exact h

theorem withSlot_received (cp : BitVec 4) (h : Handler) (s : State) : Received cp h.calls (withSlot cp h s) :=
  ⟨h, by simp [withSlot], rfl⟩

/-- The actions of a handler leave the table of handlers (R321). -/
theorem performHandler_coproc (call : HandlerCall) (s : State) (a : HandlerAction) :
    (performHandler call s a).coproc = s.coproc := by
  cases a with
  | act a => exact perform_coproc s a
  | abort addr => exact abortCall_coproc ..
  | setAcc => rfl

theorem performs_coproc (call : HandlerCall) (acts : List HandlerAction) (s : State) :
    (acts.foldl (performHandler call) s).coproc = s.coproc :=
  foldl_keeps State.coproc _ (performHandler_coproc call) acts s

theorem callHandler_received (cp : BitVec 4) (h : Handler) (call : HandlerCall) (s : State) :
    Received cp (call :: h.calls) (callHandler cp h call s).state := by
  cases hr : h.replies with
  | nil => simp only [callHandler, hr]; exact withSlot_received cp { h with replies := [], calls := call :: h.calls } s
  | cons choice rest =>
    have hw := withSlot_received cp { h with replies := rest, calls := call :: h.calls } s
    cases hp : choice.pick call s with
    | notHandled => rw [callHandler_notHandled hr hp]; exact hw
    | faultTriggered acts => rw [callHandler_faultTriggered hr hp]; exact hw.congr (performs_coproc ..)
    | handled acts v n => rw [callHandler_handled hr hp]; exact hw.congr (performs_coproc ..)

theorem Received.callData (h : Received cp calls s) (call : HandlerCall) :
    Received cp (call :: calls) (callData cp call s).2 := by
  obtain ⟨hd, hb, rfl⟩ := h
  cases hr : hd.data with
  | nil => simp only [Machine.callData, hb, hr]; exact withSlot_received cp { hd with data := [], calls := call :: hd.calls } s
  | cons choice rest =>
    rw [callData_scripted hb hr]
    exact (withSlot_received cp { hd with data := rest, calls := call :: hd.calls } s).congr (performs_coproc ..)

/-- The words are given in order, each with its number (R325). -/
theorem Received.giveWords (h : Received cp calls s) (instr : Word) (v : Nat → Word) (k n : Nat) :
    Received cp (((List.range' k n).map fun i => HandlerCall.ldcData instr i (v i)).reverse ++ calls)
      (giveWords cp instr k ((List.range' k n).map v) s) := by
  induction n generalizing k s calls with
  | zero => exact h
  | succ n ih =>
    have h1 := ih (h.callData (.ldcData instr k (v k))) (k + 1)
    simp only [List.range'_succ, List.map_cons, List.reverse_cons, List.append_assoc, List.singleton_append]
    exact h1

end

/-- A handler asks for 1 to 16 words (R320). -/
theorem callHandler_words (cp : BitVec 4) (h : Handler) (call : HandlerCall) (s : State) :
    0 < (callHandler cp h call s).words ∧ (callHandler cp h call s).words ≤ 16 := by
  cases hr : h.replies with
  | nil => simp only [callHandler, hr]; exact ⟨Nat.succ_pos _, (Config.freeCount _).isLt⟩
  | cons choice rest =>
    cases hp : choice.pick call s with
    | notHandled => rw [callHandler_notHandled hr hp]; exact ⟨Nat.one_pos, Nat.one_le_ofNat⟩
    | faultTriggered acts => rw [callHandler_faultTriggered hr hp]; exact ⟨Nat.one_pos, Nat.one_le_ofNat⟩
    | handled acts v n => rw [callHandler_handled hr hp]; exact ⟨Nat.succ_pos _, n.isLt⟩

/-! ### The address and the write-back -/

/-- The offset of LDC and STC is four times its field (R331). -/
theorem off8_append_zero (x : BitVec 8) : (x ++ 0#2 : BitVec 10).setWidth 32 = BitVec.ofNat 32 (4 * x.toNat) := by
  apply BitVec.eq_of_toNat_eq
  rw [BitVec.toNat_setWidth, BitVec.toNat_append, BitVec.toNat_ofNat, Nat.shiftLeft_eq, BitVec.toNat_ofNat, Nat.zero_mod,
    Nat.or_zero, Nat.mul_comm]

/-- A handler that answered has left the base register (R321). -/
theorem HandlerFrame.addrCp {s t : State} (fr : HandlerFrame s t) (f : CpLs) :
    addrCp f t = addressOf f.p f.u (readReg s f.rn) (BitVec.ofNat 32 (4 * f.off8.toNat)) := by
  rw [Machine.addrCp, readReg_congr fr.regs fr.pc fr.cpsr, off8_append_zero]

theorem writeReg_regs_congr {s t : State} (hr : t.regs = s.regs) (hc : t.cpsr = s.cpsr) (n : RegNum) (v : Word) :
    (writeReg t n v).regs = (writeReg s n v).regs := by
  unfold writeReg
  rw [writeBank_regs, writeBank_regs, hr, hc]

theorem writeBack_regs_congr {s t : State} (hr : t.regs = s.regs) (hc : t.cpsr = s.cpsr) (wb : Option (RegNum × Word)) :
    (writeBack wb t).regs = (writeBack wb s).regs := by
  cases wb with
  | none => exact hr
  | some p => exact writeReg_regs_congr hr hc p.1 p.2

/-! ### The cycles of a row, and memory -/

/-- What the interface stores at `Internal` and `CoprocCycle` does not depend on what else the state holds. -/
theorem performsIdle_mem {s t : State} (h : t.mem = s.mem) (l : List IdleAction) :
    (l.foldl performIdle t).mem = (l.foldl performIdle s).mem := by
  induction l generalizing s t with
  | nil => exact h
  | cons a l ih =>
    refine ih ?_
    cases a with
    | act a => simp only [performIdle, perform_mem, h]
    | write addr v => simp only [performIdle, poke, h]

theorem icycles_mem_congr {s t : State} (h : t.mem = s.mem) (hc : t.collab = s.collab) (k : Nat) :
    (icycles k t).mem = (icycles k s).mem := by
  unfold icycles
  split
  · exact h
  · simp only [internalCall, hc]; exact performsIdle_mem (by exact h) _

theorem ccycles_mem_congr {s t : State} (h : t.mem = s.mem) (hc : t.collab = s.collab) (k : Nat) :
    (ccycles k t).mem = (ccycles k s).mem := by
  unfold ccycles
  split
  · exact h
  · simp only [coprocCycleCall, hc]; exact performsIdle_mem (by exact h) _

theorem charges_mem_congr {s t : State} (h : t.mem = s.mem) (hc : t.collab = s.collab) (row : Cycles) :
    (charges row t).mem = (charges row s).mem :=
  ccycles_mem_congr (icycles_mem_congr h hc _) (by rw [icycles_collab, icycles_collab, hc]) _

/-- Over empty scripts a row's cycles store nothing (spec/20_memory.md R84). -/
theorem charges_mem {s : State} (hi : s.collab.internal = []) (hc : s.collab.coprocCycle = []) (row : Cycles) :
    (charges row s).mem = s.mem := by
  rw [charges_quiet row hi hc]; rfl

/-! ### LDC -/

/-- The state before the handler is given the words: `n` words have been read, the cycles charged, and the base written. -/
def ldcRead (n : Nat) (wb : Option (RegNum × Word)) (s : State) : State :=
  writeBack wb (transferCycles (settled (spend 1 (n - 1) 0 0 s)))

section
variable (n : Nat) (wb : Option (RegNum × Word)) (s : State)

theorem ldcRead_regs : (ldcRead n wb s).regs = (writeBack wb s).regs :=
  writeBack_regs_congr (s := s) (transferCycles_regs (settled (spend ..))) (transferCycles_cpsr (settled (spend ..))) wb

theorem ldcRead_pc : (ldcRead n wb s).pc = s.pc := (writeBack_pc ..).trans (transferCycles_pc _)

theorem ldcRead_cpsr : (ldcRead n wb s).cpsr = s.cpsr := (writeBack_cpsr ..).trans (transferCycles_cpsr _)

theorem ldcRead_spsr : (ldcRead n wb s).spsr = s.spsr := (writeBack_spsr ..).trans (transferCycles_spsr _)

theorem ldcRead_coproc : (ldcRead n wb s).coproc = s.coproc := (writeBack_coproc ..).trans (transferCycles_coproc _)

/-- The cycles of LDC: one N and the S ones, with its row's (R330). -/
theorem ldcRead_ctr : (ldcRead n wb s).ctr =
    charge 1 (n - 1) s.params.cycles.coprocTransfer.i s.params.cycles.coprocTransfer.c s.ctr := by
  rw [ldcRead, writeBack_ctr, transferCycles, charges_ctr]
  simp [settled, spend, charge, Nat.add_assoc]

theorem ldcRead_mem : (ldcRead n wb s).mem = (charges s.params.cycles.coprocTransfer s).mem :=
  (writeBack_mem ..).trans (charges_mem_congr (s := s) (t := settled (spend ..)) rfl rfl _)

end

/-- An LDC that is handled is a load of the words asked for, which are then given to the handler. -/
theorem exec_ldc_handled {f : CpLs} {h : Handler} {s : State} {adr : Address} (hc : conditionPassed f.cond s.cpsr = true)
    (hf : (Instr.ldc f).restriction = none) (hb : s.coproc[f.cp.toFin] = .bound h)
    (ha : (callHandler f.cp h (.ldc (encCpLs 1#1 f)) s).result = .handled)
    (he : addrCp f (callHandler f.cp h (.ldc (encCpLs 1#1 f)) s).state = adr) :
    exec (.ldc f) s = loadWords (callHandler f.cp h (.ldc (encCpLs 1#1 f)) s).words adr.addr (fun ws t =>
      advance (giveWords f.cp (encCpLs 1#1 f) 0 ws (writeBack (wbOf f.w f.rn adr) (transferCycles t))))
      (callHandler f.cp h (.ldc (encCpLs 1#1 f)) s).state := by
  rw [exec_ldc, execLdc, guarded_pass hc rfl, withHandler_handled hb ha, checked_pass (by exact hf), he]
  rfl

/-- Settles O35: the handler answers, the words are read in place (`loadWords_quiet`), and each is given to it; a word that
aborts ends the reads (`readWords_aborts`). -/
theorem loadCoprocessor : Obligations.loadCoprocessor := by
  unfold Obligations.loadCoprocessor
  intro f w h s hw hc hf hb
  cases hw
  intro a off moved start row ha
  have fr : HandlerFrame s a.state := callHandler_frame ..
  have hq {k : Nat} (h : QuietWords .read k start s) : QuietWords .read k start a.state := fun i hi => (h i hi).congr fr.collab
  have he := exec_ldc_handled (adr := ⟨start, moved⟩) hc hf hb ha (fr.addrCp f)
  refine ⟨fun hs hr => ?_, fun j hj hr hab => ?_⟩
  · let read := ldcRead a.words (wbOf f.w f.rn ⟨start, moved⟩) a.state
    have hpc : read.pc = s.pc := (ldcRead_pc ..).trans fr.pc
    have hcpsr : read.cpsr = s.cpsr := (ldcRead_cpsr ..).trans fr.cpsr
    have hregs : read.regs = (writeBack (wbOf f.w f.rn ⟨start, moved⟩) s).regs :=
      (ldcRead_regs ..).trans (writeBack_regs_congr fr.regs fr.cpsr _)
    have hrec : Received f.cp (.ldc (encCpLs 1#1 f) :: h.calls) read := (callHandler_received ..).congr (ldcRead_coproc ..)
    rw [writeBack_wbOf] at hregs
    rw [loadWords_quiet (callHandler_words ..).1 (hq hr)] at he
    obtain ⟨g, hg⟩ : ∃ g, giveWords f.cp (encCpLs 1#1 f) 0 (wordsAt a.state.mem a.words start) read = g := ⟨_, rfl⟩
    have he : exec (.ldc f) s = advance g := he.trans (congrArg advance hg)
    have fg : HandlerFrame read g := hg ▸ giveWords_frame ..
    have hmem : g.mem = (charges row a.state).mem := by rw [fg.mem, ldcRead_mem, fr.params]
    have hgiven := hrec.giveWords (encCpLs 1#1 f) (fun k => portLoad a.state.mem .word (start + BitVec.ofNat 32 (4 * k))) 0 a.words
    rw [← List.range_eq_range', ← wordsAt, hg, fr.mem] at hgiven
    refine ⟨forward g, he.trans (advance_next (fg.canAdvance (hs.congr hpc (by rw [hcpsr])))), hgiven, fg.regs.trans hregs,
      ?_, fg.cpsr.trans hcpsr, fg.spsr.trans ((ldcRead_spsr ..).trans fr.spsr), ?_, hmem, fun hi hcc x => ?_⟩
    · rw [forward, fg.pc, isz, fg.cpsr, hpc, hcpsr, isz]
    · rw [forward, fg.ctr, ldcRead_ctr, fr.params, fr.ctr]
    · rw [forward, hmem, charges_mem (by rw [fr.collab, hi]) (by rw [fr.collab, hcc]), fr.mem]
  · rw [he, loadWords, readWords_aborts hj (hq hr) (hab.congr fr.collab), abortedWord_n]
    rfl

end Sys2Proof.Machine
end

section
/-! STC that is handled (spec/47_arm_coprocessor_swi_undefined.md R326): the words a handler is asked for, and their stores. -/

namespace Sys2Proof.Machine

/-! ### What a handler gives does not depend on the stores -/

/-- Two states that a handler's calls cannot tell apart: it reads the same of them, has the same script, and the same free values
are to come. -/
structure SameCall (s t : State) : Prop where
  read : SameRead s t
  coproc : t.coproc = s.coproc
  freeCount : t.freeCount = s.freeCount

section
variable {s t : State} {cp : BitVec 4}

/-- What a call of a handler leaves alone, it leaves alone in both. -/
theorem SameRead.of_frames {s' t' : State} (h : SameRead s t) (fs : HandlerFrame s s') (ft : HandlerFrame t t')
    (hacc : t'.acc = s'.acc) : SameRead s' t' where
  regs := by rw [ft.regs, fs.regs, h.regs]
  pc := by rw [ft.pc, fs.pc, h.pc]
  cpsr := by rw [ft.cpsr, fs.cpsr, h.cpsr]
  spsr := by rw [ft.spsr, fs.spsr, h.spsr]
  valid := by rw [ft.pipe, fs.pipe, h.valid]
  acc := hacc
  now := by rw [ft.ctr, fs.ctr, h.now]
  params := by rw [ft.params, fs.params, h.params]

theorem performHandler_freeCount (call : HandlerCall) (s : State) (a : HandlerAction) :
    (performHandler call s a).freeCount = s.freeCount := by
  cases a with
  | act a => exact perform_freeCount s a
  | abort addr => exact abortCall_freeCount ..
  | setAcc => rfl

theorem SameCall.performHandler (h : SameCall s t) (call : HandlerCall) (a : HandlerAction) :
    SameCall (performHandler call s a) (performHandler call t a) where
  read := h.read.of_frames (performHandler_handler call s a) (performHandler_handler call t a) <| by
    cases a with
    | act a => exact (perform_acc t a).trans (h.read.acc.trans (perform_acc s a).symm)
    | abort addr => exact (abortCall_acc ..).trans (h.read.acc.trans (abortCall_acc ..).symm)
    | setAcc x y => simp only [Machine.performHandler, HandlerWord.eval_congr h.read]
  coproc := by rw [performHandler_coproc, performHandler_coproc, h.coproc]
  freeCount := by rw [performHandler_freeCount, performHandler_freeCount, h.freeCount]

theorem SameCall.performs (h : SameCall s t) (call : HandlerCall) (acts : List HandlerAction) :
    SameCall (acts.foldl (Machine.performHandler call) s) (acts.foldl (Machine.performHandler call) t) := by
  induction acts generalizing s t with
  | nil => exact h
  | cons a acts ih => exact ih (h.performHandler call a)

theorem SameCall.withSlot (h : SameCall s t) (cp : BitVec 4) (hd : Handler) :
    SameCall (withSlot cp hd s) (withSlot cp hd t) where
  read := h.read.of_frames (by constructor <;> rfl) (by constructor <;> rfl) h.read.acc
  coproc := by simp only [Machine.withSlot, h.coproc]
  freeCount := h.freeCount

/-- A call for a data word gives the same in both, and leaves two such states. -/
theorem SameCall.callData (h : SameCall s t) (cp : BitVec 4) (call : HandlerCall) :
    (callData cp call t).1 = (callData cp call s).1 ∧ SameCall (callData cp call s).2 (callData cp call t).2 := by
  cases hb : s.coproc[cp.toFin] with
  | unbound =>
    have hb' : t.coproc[cp.toFin] = .unbound := by rw [h.coproc, hb]
    simp only [Machine.callData, hb, hb']
    exact ⟨trivial, h⟩
  | bound hd =>
    have hb' : t.coproc[cp.toFin] = .bound hd := by rw [h.coproc, hb]
    cases hr : hd.data with
    | nil =>
      have hw := h.withSlot cp { hd with data := [], calls := call :: hd.calls }
      simp only [Machine.callData, hb, hb', hr, h.freeCount, true_and]
      exact ⟨hw.read.of_frames (by constructor <;> rfl) (by constructor <;> rfl) hw.read.acc, hw.coproc, rfl⟩
    | cons choice rest =>
      rw [callData_scripted hb hr, callData_scripted hb' hr, Choice.pick_congr h.read, HandlerWord.eval_congr h.read]
      exact ⟨rfl, (h.withSlot cp _).performs call _⟩

theorem SameCall.askedWords (h : SameCall s t) (cp : BitVec 4) (instr : Word) (n k : Nat) :
    askedWords cp instr n k t = askedWords cp instr n k s := by
  induction n generalizing k s t with
  | zero => rfl
  | succ n ih =>
    obtain ⟨hv, hs⟩ := h.callData cp (.stcData instr k)
    simp only [Machine.askedWords, hv, ih hs]

end

theorem askedWords_length (cp : BitVec 4) (instr : Word) (n k : Nat) (s : State) :
    (askedWords cp instr n k s).length = n := by
  induction n generalizing k s with
  | zero => rfl
  | succ n ih => simp only [askedWords, List.length_cons, ih]

/-! ### The words asked for and stored -/

/-- The state after a word is stored at the address in an access of the class. -/
def storedWord (c : Cls) (a v : Word) (s : State) : State :=
  { countAccess c 1 s with fault := clean s.fault, mem := portStore s.mem .word a v }

/-- The state after `n` words, from number `k` on, have each been asked of the handler and stored, the first by an access of class
`c` at the address `a`. -/
def storedAsked (cp : BitVec 4) (instr : Word) : Nat → Nat → Cls → Word → State → State
  | 0, _, _, _, s => s
  | n + 1, k, c, a, s =>
    let d := callData cp (.stcData instr k) s
    storedAsked cp instr n (k + 1) .s (a + 4#32) (storedWord c a d.1 d.2)

/-- What STC leaves of the core before its write-back: all but memory, the counters, and what its handler reaches. -/
structure StcFrame (s t : State) : Prop where
  regs : t.regs = s.regs
  pc : t.pc = s.pc
  cpsr : t.cpsr = s.cpsr
  spsr : t.spsr = s.spsr
  params : t.params = s.params
  collab : t.collab = s.collab

section
variable {cp : BitVec 4} {instr : Word} {s t u : State}

theorem StcFrame.trans (h : StcFrame s t) (k : StcFrame t u) : StcFrame s u :=
  ⟨k.regs.trans h.regs, k.pc.trans h.pc, k.cpsr.trans h.cpsr, k.spsr.trans h.spsr, k.params.trans h.params,
    k.collab.trans h.collab⟩

theorem HandlerFrame.stc (h : HandlerFrame s t) : StcFrame s t := ⟨h.regs, h.pc, h.cpsr, h.spsr, h.params, h.collab⟩

theorem storedWord_frame (c : Cls) (a v : Word) (s : State) : StcFrame s (storedWord c a v s) := by
  cases c <;> constructor <;> rfl

/-- A store leaves all that a handler can read (R321). -/
theorem storedWord_sameCall (c : Cls) (a v : Word) (s : State) : SameCall s (storedWord c a v s) := by
  cases c <;> exact ⟨⟨rfl, rfl, rfl, rfl, rfl, rfl, rfl, rfl⟩, rfl, rfl⟩

theorem storedAsked_frame (n k : Nat) (c : Cls) (a : Word) (s : State) : StcFrame s (storedAsked cp instr n k c a s) := by
  induction n generalizing k c a s with
  | zero => exact ⟨rfl, rfl, rfl, rfl, rfl, rfl⟩
  | succ n ih => exact ((callData_frame ..).stc.trans (storedWord_frame ..)).trans (ih ..)

theorem storedAsked_mem (n k : Nat) (c : Cls) (a : Word) (s : State) :
    (storedAsked cp instr n k c a s).mem = storeAll (askedWords cp instr n k s) a s.mem := by
  induction n generalizing k c a s with
  | zero => rfl
  | succ n ih =>
    simp only [storedAsked, askedWords, storeAll, ih, (storedWord_sameCall ..).askedWords]
    rw [storedWord, (callData_frame ..).mem]

theorem charge_charge (n m n' m' : Nat) (k : Counters) :
    charge n' m' 0 0 (charge n m 0 0 k) = charge (n + n') (m + m') 0 0 k := by
  simp only [charge, Nat.add_zero, Nat.add_assoc, Nat.add_left_comm]

theorem storedWord_ctr_n (a v : Word) (s : State) : (storedWord .n a v s).ctr = charge 1 0 0 0 s.ctr := rfl

theorem storedWord_ctr_s (a v : Word) (s : State) : (storedWord .s a v s).ctr = charge 0 1 0 0 s.ctr := rfl

/-- The accesses after the first one are of class S (spec/20_memory.md R85). -/
theorem storedAsked_ctr_s (n k : Nat) (a : Word) (s : State) :
    (storedAsked cp instr n k .s a s).ctr = charge 0 n 0 0 s.ctr := by
  induction n generalizing k a s with
  | zero => rfl
  | succ n ih => rw [storedAsked, ih, storedWord_ctr_s, (callData_frame ..).ctr, charge_charge, Nat.add_comm 1]

theorem storedAsked_ctr_n (n k : Nat) (a : Word) (s : State) :
    (storedAsked cp instr (n + 1) k .n a s).ctr = charge 1 n 0 0 s.ctr := by
  rw [storedAsked, storedAsked_ctr_s, storedWord_ctr_n, (callData_frame ..).ctr, charge_charge, Nat.zero_add]

theorem Received.storedAsked {calls : List HandlerCall} (h : Received cp calls s) (n k : Nat) (c : Cls) (a : Word) :
    Received cp (((List.range' k n).map (HandlerCall.stcData instr)).reverse ++ calls) (storedAsked cp instr n k c a s) := by
  induction n generalizing k c a s calls with
  | zero => exact h
  | succ n ih =>
    have h1 := (h.callData (.stcData instr k)).congr (storedWord_sameCall c a (Machine.callData cp (.stcData instr k) s).1 _).coproc
    simp only [List.range'_succ, List.map_cons, List.reverse_cons, List.append_assoc, List.singleton_append]
    exact ih h1 (k + 1) .s (a + 4#32)

/-- Words that meet no region are asked for and stored, and the rest goes on from there. -/
theorem storeHandlerWords_add {j k : Nat} {c : Cls} {a : Word} (hq : QuietWords .write j a s) (m : Nat) :
    storeHandlerWords cp instr (j + m) k c a s = storeHandlerWords cp instr m (k + j) (if j = 0 then c else .s)
      (a + BitVec.ofNat 32 (4 * j)) (storedAsked cp instr j k c a s) := by
  induction j generalizing k c a s with
  | zero => simp [storedAsked]
  | succ j ih =>
    have hc : (callData cp (.stcData instr k) s).2.collab = s.collab := (callData_frame ..).collab
    have ht := hq.tail ((storedWord_frame c a (callData cp (.stcData instr k) s).1 _).collab.trans hc)
    rw [Nat.succ_add, storeHandlerWords]
    simp only [memWrite_quiet (hq.head.congr hc)]
    rw [← storedWord, ih ht, ite_self, if_neg (Nat.succ_ne_zero j), block_succ, Nat.succ_add_eq_add_succ]
    rfl

theorem storeHandlerWords_quiet {n k : Nat} {c : Cls} {a : Word} (hq : QuietWords .write n a s) :
    storeHandlerWords cp instr n k c a s = .ok () (storedAsked cp instr n k c a s) := storeHandlerWords_add hq 0

end

/-- The state in which word `j` of an STC has aborted: it has been asked for, and the words before it stored. -/
def stcAborted (cp : BitVec 4) (instr : Word) (j : Nat) (a : Word) (s : State) : State :=
  let u := (callData cp (.stcData instr j) (storedAsked cp instr j 0 .n a s)).2
  { countAccess (if j = 0 then .n else .s) 1 u with
    fault := { u.fault with aborted := some .data, abortAddr := a + BitVec.ofNat 32 (4 * j) } }

section
variable {cp : BitVec 4} {instr : Word} {j n : Nat} {a : Word} {s : State}

theorem storeHandlerWords_aborts (hj : j < n) (hq : QuietWords .write j a s)
    (ha : AbortsAt (if j = 0 then .n else .s) .write .word (a + BitVec.ofNat 32 (4 * j)) s) :
    storeHandlerWords cp instr n 0 .n a s = .abort (stcAborted cp instr j a s) := by
  obtain ⟨m, rfl⟩ := Nat.exists_eq_add_of_lt hj
  have hc := (callData_frame cp (.stcData instr j) (storedAsked cp instr j 0 .n a s)).collab.trans
    (storedAsked_frame ..).collab
  rw [Nat.add_assoc, storeHandlerWords_add hq, Nat.zero_add, storeHandlerWords]
  simp only [memWrite_aborts (ha.congr hc)]
  rfl

theorem stcAborted_frame : StcFrame s (stcAborted cp instr j a s) := by
  have h := (storedAsked_frame (cp := cp) (instr := instr) j 0 .n a s).trans (callData_frame cp (.stcData instr j) _).stc
  exact ⟨(countAccess_regs ..).trans h.regs, (countAccess_pc ..).trans h.pc, (countAccess_cpsr ..).trans h.cpsr,
    (countAccess_spsr ..).trans h.spsr, (countAccess_params ..).trans h.params, (countAccess_collab ..).trans h.collab⟩

theorem stcAborted_mem : (stcAborted cp instr j a s).mem = storeAll (askedWords cp instr j 0 s) a s.mem := by
  simp only [stcAborted, countAccess_mem, (callData_frame ..).mem, storedAsked_mem]

/-- One N access and `j` S ones, the one that aborts included (spec/20_memory.md R81). -/
theorem stcAborted_ctr : (stcAborted cp instr j a s).ctr = charge 1 j 0 0 s.ctr := by
  cases j with
  | zero => simp [stcAborted, (callData_frame ..).ctr, storedAsked, charge]
  | succ j => simp [stcAborted, (callData_frame ..).ctr, storedAsked_ctr_n, charge, Nat.add_assoc]

theorem Received.stcAborted {calls : List HandlerCall} (h : Received cp calls s) :
    Received cp (((List.range (j + 1)).map (HandlerCall.stcData instr)).reverse ++ calls) (stcAborted cp instr j a s) := by
  have h1 := (h.storedAsked (instr := instr) j 0 .n a).callData (.stcData instr j)
  rw [← List.range_eq_range'] at h1
  rw [List.range_succ, List.map_append, List.reverse_append]
  exact h1.congr (countAccess_coproc ..)

end

/-! ### STC -/

section
variable {f : CpLs} {h : Handler} {s t : State} {adr : Address} (hc : conditionPassed f.cond s.cpsr = true)
  (hf : (Instr.stc f).restriction = none) (hb : s.coproc[f.cp.toFin] = .bound h)
  (ha : (callHandler f.cp h (.stc (encCpLs 0#1 f)) s).result = .handled)
  (he : addrCp f (callHandler f.cp h (.stc (encCpLs 0#1 f)) s).state = adr)
include hc hf hb ha he

/-- An STC that is handled and whose words are all stored writes its base and advances. -/
theorem exec_stc_stored (hw : storeHandlerWords f.cp (encCpLs 0#1 f) (callHandler f.cp h (.stc (encCpLs 0#1 f)) s).words 0 .n
      adr.addr (callHandler f.cp h (.stc (encCpLs 0#1 f)) s).state = .ok () t) :
    exec (.stc f) s = advance (writeBack (wbOf f.w f.rn adr) (transferCycles t)) := by
  rw [exec_stc, execStc, guarded_pass hc rfl, withHandler_handled hb ha, checked_pass (by exact hf), he, hw]

/-- An STC that is handled and one of whose words aborts takes the Data Abort. -/
theorem exec_stc_aborts (hw : storeHandlerWords f.cp (encCpLs 0#1 f) (callHandler f.cp h (.stc (encCpLs 0#1 f)) s).words 0 .n
      adr.addr (callHandler f.cp h (.stc (encCpLs 0#1 f)) s).state = .abort t) : exec (.stc f) s = raise .dataAbort t := by
  rw [exec_stc, execStc, guarded_pass hc rfl, withHandler_handled hb ha, checked_pass (by exact hf), he, hw]

end

/-- Settles O36: the handler answers, and each word is asked for and stored in place (`storeHandlerWords_quiet`), to the last or
to the one that aborts (`storeHandlerWords_aborts`). -/
theorem storeCoprocessor : Obligations.storeCoprocessor := by
  unfold Obligations.storeCoprocessor
  intro f w h s hw hc hf hb hwf
  cases hw
  intro a off moved start asked kept ha
  have fr : HandlerFrame s a.state := callHandler_frame ..
  have hrec : Received f.cp (.stc (encCpLs 0#1 f) :: h.calls) a.state := callHandler_received ..
  have hle : a.words ≤ 16 := (callHandler_words ..).2
  have hq {k : Nat} (h : QuietWords .write k start s) : QuietWords .write k start a.state := fun i hi =>
    (h i hi).congr fr.collab
  have he : addrCp f a.state = ⟨start, moved⟩ := fr.addrCp f
  have hkept {t : State} (ft : StcFrame a.state t) : kept t := by
    obtain ⟨hr, hp, hc, hs, hm, -⟩ := fr.stc.trans ft
    exact ⟨hr, hp, hc, hs, hm⟩
  have hst {j : Nat} (hj : j ≤ 16) {t : State}
      (ht : t.mem = storeAll (askedWords f.cp (encCpLs 0#1 f) j 0 a.state) start a.state.mem) :
      StoredWords start (askedWords f.cp (encCpLs 0#1 f) j 0 a.state) s t :=
    storeAll_stored hwf (by rwa [askedWords_length]) (by rw [ht, fr.mem])
  refine ⟨fun hs hr => ?_, fun j hj hr hab => ?_⟩
  · obtain ⟨n, hn⟩ : ∃ n, a.words = n + 1 := Nat.exists_eq_add_one.2 (callHandler_words ..).1
    have ft := storedAsked_frame (cp := f.cp) (instr := encCpLs 0#1 f) a.words 0 .n start a.state
    have hgot := hrec.storedAsked (instr := encCpLs 0#1 f) a.words 0 .n start
    rw [← List.range_eq_range'] at hgot
    refine ⟨_, hst hle (storedAsked_mem ..), hgot, hkept ft, ?_, ?_⟩
    · rw [hn, storedAsked_ctr_n, fr.ctr]; rfl
    · obtain ⟨-, hpc, hcpsr, -, hparams⟩ := hkept ft
      rw [exec_stc_stored hc hf hb ha he (storeHandlerWords_quiet (hq hr)), transferCycles, hparams,
        advance_next (((hs.congr hpc (by rw [hcpsr])).charges _).writeBack _), writeBack_wbOf]
  · exact ⟨stcAborted f.cp (encCpLs 0#1 f) j start a.state,
      exec_stc_aborts hc hf hb ha he (storeHandlerWords_aborts hj (hq hr) (hab.congr fr.collab)),
      hst (hj.le.trans hle) stcAborted_mem, hrec.stcAborted, hkept stcAborted_frame, by rw [stcAborted_ctr, fr.ctr], rfl⟩

end Sys2Proof.Machine
end

section
/-! The Thumb data processing instructions (spec/48_thumb_data.md R350 to R385): every form charges its row, writes what one
operation of the ALU or the shifter gives, and advances; only format 5 can write the pc. -/

namespace Sys2Proof.Machine

/-! ### Register numbers and constants -/

/-- A Thumb register field never names r15. -/
theorem low_ne_pc (r : LoReg) : low r ≠ 15#4 := by
  revert r; decide

/-- A zero-extended offset with `k` zero bits under it is `2 ^ k` times the offset. -/
theorem setWidth_append_zero {n : Nat} (x : BitVec n) (k w : Nat) :
    (x ++ 0#k).setWidth w = BitVec.ofNat w (2 ^ k * x.toNat) := by
  apply BitVec.eq_of_toNat_eq
  rw [BitVec.toNat_setWidth, BitVec.toNat_append, BitVec.toNat_ofNat, Nat.shiftLeft_eq, BitVec.toNat_ofNat, Nat.zero_mod,
    Nat.or_zero, Nat.mul_comm]

/-- A word offset field is four times the field (spec/30_encoding.md R136). -/
theorem wordOffset_eq {n : Nat} (v : BitVec n) : wordOffset v = BitVec.ofNat 32 (4 * v.toNat) := by
  rw [wordOffset, setWidth_append_zero]; rfl

/-! ### What a form leaves -/

section
variable {s : State} {rd : LoReg} {r : AluOut}

/-- A result in a low register is the ARM result with S = 1. -/
theorem thumbResult_next (h : CanAdvance s) : thumbResult rd r s = .next (withResult true (low rd) r s) :=
  advance_setFlags (h.writeReg (low rd) r.value)

theorem thumbArith_next (h : CanAdvance s) (op : AluOp) (a b : Word) : thumbArith op rd a b s =
    .next (withResult true (low rd) (alu op a b s.cpsr.c s.cpsr) (charges s.params.cycles.dataImm s)) :=
  thumbResult_next (h.charges _)

/-- A form whose operation is an addition of the adder (R205). -/
theorem thumbArith_adds (h : CanAdvance s) {op : AluOp} {a b : Word} {c : Bool}
    (ho : alu op a b s.cpsr.c s.cpsr = addWithCarry a b c) : thumbArith op rd a b s = .next (withResult true (low rd) {
      value := a + b + BitVec.ofNat 32 c.toNat
      c := decide (4294967296 ≤ a.toNat + b.toNat + c.toNat)
      v := overflows (a.toInt + b.toInt + c.toNat) } (charges s.params.cycles.dataImm s)) := by
  rw [thumbArith_next h, ho, addWithCarry_add]

/-- A form whose operation takes `b` from `a` on the adder, with NOT `c` as the borrow (R205); `x` and `y` are the operands
in the order of the operation. -/
theorem thumbArith_subtracts (h : CanAdvance s) {op : AluOp} {x y a b : Word} {c : Bool}
    (ho : alu op x y s.cpsr.c s.cpsr = addWithCarry a (~~~b) c) : thumbArith op rd x y s = .next (withResult true (low rd) {
      value := a - b - BitVec.ofNat 32 (!c).toNat
      c := decide (b.toNat + (!c).toNat ≤ a.toNat)
      v := overflows (a.toInt - b.toInt - (!c).toNat) } (charges s.params.cycles.dataImm s)) := by
  rw [thumbArith_next h, ho, addWithCarry_sub]

theorem thumbCompare_next (h : CanAdvance s) (op : AluOp) (a b : Word) : thumbCompare op a b s =
    .next (compared (alu op a b s.cpsr.c s.cpsr) (charges s.params.cycles.dataImm s)) :=
  advance_setFlags (h.charges _)

/-- N and Z alone (R362): C and V are written as they are. -/
theorem advance_setNz (h : CanAdvance s) (v : Word) :
    advance (setNz v s) = .next (compared ⟨v, s.cpsr.c, s.cpsr.v⟩ s) := by
  rw [setNz_eq]
  exact advance_next (h.congr rfl rfl)

theorem thumbLogical_next (h : CanAdvance s) (v : Word) : thumbLogical rd v s =
    .next (withResult true (low rd) ⟨v, s.cpsr.c, s.cpsr.v⟩ (charges s.params.cycles.dataImm s)) := by
  rw [thumbLogical, immCycles, advance_setNz ((h.charges _).writeReg (low rd) v), writeReg_cpsr, charges_cpsr]
  rfl

theorem plainResult_next (h : CanAdvance s) (n : RegNum) (v : Word) : plainResult n v s =
    .next (forward (writeReg (charges s.params.cycles.dataImm s) n v)) :=
  advance_next ((h.charges _).writeReg n v)

theorem highResult_eq {hd : RegNum} (h : hd ≠ 15#4 → CanAdvance s) (v : Word) : highResult hd v s =
    if hd = 15#4 then .next (branchTo v (charges s.params.cycles.dataImm s))
    else .next (forward (writeReg (charges s.params.cycles.dataImm s) hd v)) := by
  unfold highResult
  split
  · rfl
  · rename_i hd
    exact advance_next (((h hd).charges _).writeReg _ v)

end

/-- Settles O45: each form is `thumbResult` of what the shifter gives, after the cycles of its row. -/
theorem thumbShifts : Obligations.thumbShifts := by
  intro s hs
  have imm (f : T1) (ty : ShiftType) := thumbResult_next (rd := f.rd)
    (r := shiftedOut (shiftImm ty f.off5.toNat (readReg s (low f.rs)) s.cpsr.c) s) (hs.charges s.params.cycles.dataImm)
  have reg (f : T4) (ty : ShiftType) := thumbResult_next (rd := f.rd)
    (r := shiftedOut (shiftReg ty (shiftAmount s (low f.rs)) (readReg s (low f.rd)) s.cpsr.c) s)
    (hs.charges s.params.cycles.dataReg)
  exact ⟨fun f => ⟨imm f .lsl, imm f .lsr, imm f .asr⟩, fun f => ⟨reg f .lsl, reg f .lsr, reg f .asr, reg f .ror⟩⟩

/-- Settles O46: every form is one run of the adder, and NEG is 0 - Rs through its commutativity. -/
theorem thumbArithmetic : Obligations.thumbArithmetic := by
  intro s hs s0 adds subtracts compares
  have add {i : Instr} {rd : LoReg} {a b : Word} {c : Bool} {op : AluOp} (hi : exec i s = thumbArith op rd a b s)
      (ho : alu op a b s.cpsr.c s.cpsr = addWithCarry a b c) : adds i rd a b c := hi.trans (thumbArith_adds hs ho)
  have sub {i : Instr} {rd : LoReg} {x y a b : Word} {c borrow : Bool} {op : AluOp} (hi : exec i s = thumbArith op rd x y s)
      (ho : alu op x y s.cpsr.c s.cpsr = addWithCarry a (~~~b) c) (hb : borrow = !c) : subtracts i rd a b borrow := by
    subst hb
    exact hi.trans (thumbArith_subtracts hs ho)
  have cmp {i : Instr} {a b : Word} (hi : exec i s = thumbCompare .cmp a b s) : compares i a b := by
    rw [thumbCompare_next hs, alu_cmp] at hi
    exact hi
  refine ⟨fun f => ⟨add (exec_tAddReg f s) rfl, sub (exec_tSubReg f s) rfl rfl⟩,
    fun f => ⟨add (exec_tAddImm3 f s) rfl, sub (exec_tSubImm3 f s) rfl rfl⟩,
    fun f => ⟨add (exec_tAddImm8 f s) rfl, sub (exec_tSubImm8 f s) rfl rfl, cmp (exec_tCmpImm f s)⟩,
    fun f => ⟨add (exec_tAdc f s) rfl, sub (exec_tSbc f s) rfl rfl, sub (exec_tNeg f s) (addWithCarry_comm _ _ _) rfl,
      cmp (exec_tCmp f s), ?_⟩,
    fun f hf => cmp ((exec_tCmpHi f s).trans (checked_pass (by exact hf)))⟩
  exact (thumbCompare_next hs .cmn _ _).trans (by rw [alu_cmn]; rfl)

/-- Settles O47: each form is `thumbLogical`, and TST is its flags alone. -/
theorem thumbLogicalOperations : Obligations.thumbLogical := by
  intro s hs s0 goes
  have logic (rd : LoReg) (v : Word) := thumbLogical_next (rd := rd) hs v
  refine ⟨fun f => logic _ _, fun f => ⟨logic _ _, logic _ _, logic _ _, logic _ _, logic _ _, ?_⟩⟩
  have hc : s0.cpsr = s.cpsr := charges_cpsr ..
  rw [← hc]
  exact advance_setNz (hs.charges _) _

/-- Settles O48: format 5 ends in `highResult`, the other forms in `plainResult`. -/
theorem thumbAddresses : Obligations.thumbAddresses := by
  unfold Obligations.thumbAddresses
  simp only [← wordOffset_eq]
  intro s
  refine ⟨fun f hf ha => ?_, fun hs => ⟨fun f => ⟨?_, ?_⟩, fun f => ⟨?_, ?_⟩⟩⟩
  · have check (body : State → Out) : checked f.check body s = body s := checked_pass hf
    rw [exec_tAddHi, exec_tMovHi, execTAddHi, execTMovHi, check, check]
    exact ⟨highResult_eq ha _, highResult_eq ha _⟩
  · rw [exec_tAddPc, execTAddPc, plainResult_next hs]; rfl
  · rw [exec_tAddSp, execTAddSp, plainResult_next hs]; rfl
  · rw [exec_tAddToSp, execTAddToSp, plainResult_next hs]; rfl
  · rw [exec_tSubFromSp, execTSubFromSp, plainResult_next hs]; rfl

end Sys2Proof.Machine
end

section
/-! The Thumb transfers (spec/49_thumb_memory_branch.md R400 to R421) over a quiet interface: a single transfer has no
write-back, and a block transfer is that of a 16-bit list. -/

namespace Sys2Proof.Machine

/-! ### Addresses -/

/-- The offset of formats 9 and 10 is the field times the width (spec/30_encoding.md R139, R140). -/
theorem addrT9_eq (k : Nat) (f : T9) (s : State) :
    addrT9 k f s = readReg s (low f.rb) + BitVec.ofNat 32 (2 ^ k * f.off5.toNat) := by
  rw [addrT9]
  congr 1
  apply BitVec.eq_of_toNat_eq
  rw [BitVec.toNat_shiftLeft, BitVec.toNat_setWidth, Nat.shiftLeft_eq, BitVec.toNat_ofNat,
    Nat.mod_eq_of_lt (by omega : f.off5.toNat < 2 ^ 32), Nat.mul_comm]

theorem addrSp_eq (f : T6) (s : State) : addrSp f s = readReg s 13#4 + BitVec.ofNat 32 (4 * f.word8.toNat) := by
  rw [addrSp, wordOffset_eq, spNum]

theorem addrPc_eq (f : T6) (s : State) :
    addrPc f s = ((s.pc + 4#32) &&& 0xFFFFFFFC#32) + BitVec.ofNat 32 (4 * f.word8.toNat) := by
  rw [addrPc, wordOffset_eq, thumbPcBase]

/-! ### Single transfers -/

section
variable {i : Instr} {rd : LoReg} {a : Word} {s : State}

/-- A load into a low register (R400). -/
theorem exec_thumbLoad {op : LoadOp} (hi : exec i s = transfer (.load op) (low rd) a none s) (hs : CanAdvance s)
    (hq : QuietAt .read op.size a s) (ha : op.size = .half → a.getLsbD 0 = false) :
    exec i s = .next (forward (writeReg (charges s.params.cycles.load (settled (spend 1 0 0 0 s))) (low rd)
      (op.value a (portLoad s.mem op.size a)))) := by
  have h1 : CanAdvance (settled (spend 1 0 0 0 s)) := hs
  rw [hi, transfer, loadReg_quiet hq ha, finishLoad_reg h1 (low_ne_pc rd)]
  rfl

/-- A store of a low register (R400). -/
theorem exec_thumbStore {sz : Size} (hi : exec i s = transfer (.store sz) (low rd) a none s) (hs : CanAdvance s)
    (hw : s.mem.wf = true) (hq : QuietAt .write sz a s) (ha : sz = .half → a.getLsbD 0 = false) :
    ∃ s1, Stored sz a (readReg s (low rd)) s s1 ∧ s1 = { settled (spend 1 0 0 0 s) with mem := s1.mem } ∧
      exec i s = .next (forward (charges s.params.cycles.store s1)) := by
  refine ⟨{ settled (spend 1 0 0 0 s) with mem := portStore s.mem sz a (readReg s (low rd)) },
    portStore_stored hw ha rfl, rfl, ?_⟩
  rw [hi, transfer, storeReg_quiet hs hq ha, storeValue, if_neg (low_ne_pc rd)]
  rfl

end

/-- The loads of formats 7 and 8 are transfers at the sum of the registers. -/
theorem loadsT7_run : ∀ row ∈ loadsT7, ∀ (f : T7) (s : State), exec (row.1 f) s =
    transfer (.load row.2) (low f.rd) (readReg s (low f.rb) + readReg s (low f.ro)) none s := by
  simp only [loadsT7, List.forall_mem_cons]
  exact ⟨exec_tLdrReg, exec_tLdrbReg, exec_tLdrhReg, exec_tLdsb, exec_tLdsh, nofun⟩

theorem storesT7_run : ∀ row ∈ storesT7, ∀ (f : T7) (s : State), exec (row.1 f) s =
    transfer (.store row.2) (low f.rd) (readReg s (low f.rb) + readReg s (low f.ro)) none s := by
  simp only [storesT7, List.forall_mem_cons]
  exact ⟨exec_tStrReg, exec_tStrbReg, exec_tStrhReg, nofun⟩

/-- The loads of formats 9 and 10 are transfers at the scaled offset. -/
theorem loadsT9_run : ∀ row ∈ loadsT9, ∀ (f : T9) (s : State), exec (row.1 f) s =
    transfer (.load row.2.1) (low f.rd) (readReg s (low f.rb) + BitVec.ofNat 32 (row.2.2 * f.off5.toNat)) none s := by
  have h (op : LoadOp) (k : Nat) (f : T9) (s : State) : transferT9 (.load op) k f s =
      transfer (.load op) (low f.rd) (readReg s (low f.rb) + BitVec.ofNat 32 (2 ^ k * f.off5.toNat)) none s := by
    rw [transferT9, addrT9_eq]
  simp only [loadsT9, List.forall_mem_cons]
  exact ⟨fun f s => (exec_tLdrImm f s).trans (h _ 2 f s), fun f s => (exec_tLdrbImm f s).trans (h _ 0 f s),
    fun f s => (exec_tLdrhImm f s).trans (h _ 1 f s), nofun⟩

theorem storesT9_run : ∀ row ∈ storesT9, ∀ (f : T9) (s : State), exec (row.1 f) s =
    transfer (.store row.2.1) (low f.rd) (readReg s (low f.rb) + BitVec.ofNat 32 (row.2.2 * f.off5.toNat)) none s := by
  have h (sz : Size) (k : Nat) (f : T9) (s : State) : transferT9 (.store sz) k f s =
      transfer (.store sz) (low f.rd) (readReg s (low f.rb) + BitVec.ofNat 32 (2 ^ k * f.off5.toNat)) none s := by
    rw [transferT9, addrT9_eq]
  simp only [storesT9, List.forall_mem_cons]
  exact ⟨fun f s => (exec_tStrImm f s).trans (h _ 2 f s), fun f s => (exec_tStrbImm f s).trans (h _ 0 f s),
    fun f s => (exec_tStrhImm f s).trans (h _ 1 f s), nofun⟩

/-- Settles O49: every form is one `transfer` into a low register, at the address of its table. -/
theorem thumbLoads : Obligations.thumbLoads := by
  unfold Obligations.thumbLoads
  simp only [← addrPc_eq, ← addrSp_eq]
  intro s hs
  exact ⟨fun f => ⟨fun hq ha => exec_thumbLoad (exec_tLdrPc f s) hs hq ha,
      fun hq ha => exec_thumbLoad (exec_tLdrSp f s) hs hq ha⟩,
    fun row hr f hq ha => exec_thumbLoad (loadsT7_run row hr f s) hs hq ha,
    fun row hr f hq ha => exec_thumbLoad (loadsT9_run row hr f s) hs hq ha⟩

/-- Settles O50: every form is one `transfer` of a low register, at the address of its table. -/
theorem thumbStores : Obligations.thumbStores := by
  unfold Obligations.thumbStores
  simp only [← addrSp_eq]
  intro s hs hw
  exact ⟨fun f hq ha => exec_thumbStore (exec_tStrSp f s) hs hw hq ha,
    fun row hr f hq ha => exec_thumbStore (storesT7_run row hr f s) hs hw hq ha,
    fun row hr f hq ha => exec_thumbStore (storesT9_run row hr f s) hs hw hq ha⟩

/-! ### Block transfers -/

/-- A list of low registers as a 16-bit list. -/
theorem getLsbD_setWidth_16 (list : BitVec 8) (r : Nat) : (list.setWidth 16).getLsbD r = list.getLsbD r := by
  rw [BitVec.getLsbD_setWidth]
  by_cases h : r < 16
  · simp [h]
  · rw [BitVec.getLsbD_of_ge list r (by omega), Bool.and_false]

theorem wordOf_setWidth_16 (list : BitVec 8) (a : Word) (r : Nat) : wordOf (list.setWidth 16) a r = wordOf list a r := by
  simp only [wordOf, countBelow, getLsbD_setWidth_16]

theorem listRegs_setWidth_16 (list : BitVec 8) : listRegs (list.setWidth 16) = listRegs list := by
  have h := listRegs_or (by decide) list (high := 0#16) (by decide)
  rwa [BitVec.or_zero, show listRegs 0#16 = [] from rfl, List.append_nil] at h

theorem countBelow_setWidth_16 (list : BitVec 8) : countBelow (list.setWidth 16) 16 = countBelow list 8 := by
  rw [← listRegs_length, listRegs_setWidth_16, listRegs_length]

/-- The list of a PUSH or a POP whose check passes is not empty: bit 14 or 15 is set when the low list is empty (R418). -/
theorem pushPop_ne_zero {f : T14} (h : f.check = none) {high : BitVec 16} (hh : high ≠ 0#16) :
    f.list.setWidth 16 ||| (if f.r then high else 0#16) ≠ 0#16 := by
  intro hz
  rw [BitVec.or_eq_zero_iff] at hz
  obtain ⟨hl, hr⟩ := hz
  have hl : f.list = 0#8 := by
    have := congrArg (BitVec.setWidth 8) hl
    simpa using this
  cases hb : f.r with
  | false => simp [T14.check, firstOf, hl, hb] at h
  | true => rw [hb] at hr; exact hh hr

theorem pushList_ne_zero {f : T14} (h : f.check = none) : pushList f ≠ 0#16 := pushPop_ne_zero h (by decide)

theorem popList_ne_zero {f : T14} (h : f.check = none) : popList f ≠ 0#16 := pushPop_ne_zero h (by decide)

/-- Settles O51: both are a store of the words of a list in place (`storedBlock`), the base moved past them. -/
theorem thumbStoreMultiple : Obligations.thumbStoreMultiple := by
  unfold Obligations.thumbStoreMultiple
  intro s hs hw
  constructor
  · intro f hf n start hq
    refine ⟨storedBlock (pushList f) (readReg s) start s, storedList_storeAll (by decide) hw (fun r _ => rfl) rfl, rfl, ?_⟩
    have h1 : CanAdvance (storedBlock (pushList f) (readReg s) start s) := hs
    rw [exec_tPush, execTPush, checked_pass (by exact hf), ← listRegs_pushList, pushStart_eq]
    exact (storeWords_listRegs (pushList_ne_zero hf) hq).trans (advance_next ((h1.charges _).writeReg _ _))
  · intro f hf n start hq
    refine ⟨storedBlock f.list (readReg s) start s, storedList_storeAll (by decide) hw (fun r _ => rfl) rfl, rfl, ?_⟩
    have h1 : CanAdvance (storedBlock f.list (readReg s) start s) := hs
    rw [exec_tStmia, execTStmia, checked_pass (by exact hf), listBytes_listRegs]
    exact (storeWords_listRegs (list_ne_zero hf) hq).trans (advance_next ((h1.charges _).writeReg _ _))

theorem popList_getLsbD (f : T14) {r : RegNum} (h : r ≠ 15#4) : (popList f).getLsbD r.toNat = f.list.getLsbD r.toNat := by
  have hb : ∀ r : RegNum, r ≠ 15#4 → (0x8000#16).getLsbD r.toNat = false := by decide
  rw [popList, BitVec.getLsbD_or, getLsbD_setWidth_16]
  cases f.r with
  | false => simp
  | true => simp [hb r h]

/-- Settles O52: both are a load of the words of a 16-bit list (`loadedBlock`) that writes the base first, LDMIA only when
the base is not listed. -/
theorem thumbLoadMultiple : Obligations.thumbLoadMultiple := by
  unfold Obligations.thumbLoadMultiple
  intro s
  constructor
  · intro f hf ha n start hq
    have hn : 0 < n := countBelow_pos (popList_ne_zero hf)
    let adr : Address := ⟨start, start + BitVec.ofNat 32 (4 * n)⟩
    refine ⟨loadedBlock (popList f) start (wbOf true 13#4 adr) s, loadedBlock_eq,
      fun r hr => ?_, fun p hp => readPhys_loadedBlock_other hp, ?_⟩
    · rw [readReg_loadedBlock _ _ _ hr, popList_getLsbD f hr]
      simp only [true_and, adr]
    · have he : exec (.tPop f) s = if f.r
          then .next (branchTo (pcWord (wordsAt s.mem n start)) (loadedBlock (popList f) start (wbOf true 13#4 adr) s))
          else advance (loadedBlock (popList f) start (wbOf true 13#4 adr) s) := by
        rw [exec_tPop, execTPop, checked_pass (by exact hf), ← listRegs_popList, listRegs_length, listBytes_listRegs]
        exact loadWords_quiet hn hq
      rw [he]
      cases hr : f.r with
      | true => rw [if_pos rfl, if_pos rfl, pcWord_wordsAt (by simp [popList, hr])]
      | false =>
        exact advance_next ((ha hr).congr loadedBlock_pc (by rw [loadedBlock_cpsr]))
  · intro f hf hs n start hq
    have hn : 0 < n := countBelow_pos (list_ne_zero hf)
    let adr : Address := ⟨start, start + BitVec.ofNat 32 (4 * n)⟩
    let wb := wbOf (!f.list.getLsbD f.rb.toNat) (low f.rb) adr
    refine ⟨loadedBlock (f.list.setWidth 16) start wb s, ?_, fun r hr => ?_, fun p hp => readPhys_loadedBlock_other hp, ?_⟩
    · have h := loadedBlock_eq (list := f.list.setWidth 16) (start := start) (wb := wb) (s := s)
      rwa [countBelow_setWidth_16] at h
    · have hb (h : r = low f.rb) : r.toNat = f.rb.toNat := by rw [h, low, BitVec.toNat_setWidth]; omega
      rw [readReg_loadedBlock _ _ _ hr, getLsbD_setWidth_16, wordOf_setWidth_16]
      split
      · rfl
      · rename_i hl
        refine if_congr ⟨And.right, fun h => ⟨?_, h⟩⟩ rfl rfl
        rw [← hb h]
        simpa using hl
    · have he : exec (.tLdmia f) s = advance (loadedBlock (f.list.setWidth 16) start wb s) := by
        rw [exec_tLdmia, execTLdmia, checked_pass (by exact hf), listRegs_length, listBytes_listRegs, loadWords_quiet hn hq,
          loadedBlock, listRegs_setWidth_16, countBelow_setWidth_16]
        cases hl : f.list.getLsbD f.rb.toNat with
        | true => simp only [wb, hl]; rfl
        | false => simp only [wb, hl]; rfl
      rw [he]
      exact advance_next (hs.congr loadedBlock_pc (by rw [loadedBlock_cpsr]))

end Sys2Proof.Machine
end

section
/-! The Thumb branches (spec/49_thumb_memory_branch.md R430, R432, R447, R448): the offsets read as integers. -/

namespace Sys2Proof.Machine

theorem thumbTarget8_eq (off8 : BitVec 8) (s : State) :
    thumbTarget8 off8 s = s.pc + 4#32 + BitVec.ofInt 32 (2 * off8.toInt) := by
  rw [thumbTarget8, signExtend_append_zero]; rfl

theorem thumbTarget11_eq (off11 : BitVec 11) (s : State) :
    thumbTarget11 off11 s = s.pc + 4#32 + BitVec.ofInt 32 (2 * off11.toInt) := by
  rw [thumbTarget11, signExtend_append_zero]; rfl

/-- The upper part of the offset of BL (R447). -/
theorem blHigh_eq (off11 : BitVec 11) (s : State) :
    blHigh off11 s = s.pc + 4#32 + BitVec.ofInt 32 (4096 * off11.toInt) := by
  have h : off11.signExtend 32 <<< 12 = BitVec.ofInt 32 (4096 * off11.toInt) := by
    rw [BitVec.shiftLeft_eq_mul_twoPow, BitVec.ofInt_mul, BitVec.mul_comm, BitVec.signExtend]; rfl
  rw [blHigh, h]

theorem blTarget_eq (off11 : BitVec 11) (s : State) :
    blTarget off11 s = readReg s 14#4 + BitVec.ofNat 32 (2 * off11.toNat) := by
  rw [blTarget, setWidth_append_zero, lrNum]; rfl

/-- Each conditional branch is `branchIf` of its condition (R430). -/
theorem condBranches_run : ∀ row ∈ condBranches, ∀ (f : T16) (s : State), exec (row.1 f) s = branchIf row.2 f s := by
  simp only [condBranches, List.forall_mem_cons]
  exact ⟨exec_tBEq, exec_tBNe, exec_tBCs, exec_tBCc, exec_tBMi, exec_tBPl, exec_tBVs, exec_tBVc, exec_tBHi, exec_tBLs,
    exec_tBGe, exec_tBLt, exec_tBGt, exec_tBLe, nofun⟩

/-- Settles O53: the conditional branches are one `branchIf`, and the targets are read as integers. -/
theorem thumbBranches : Obligations.thumbBranches := by
  unfold Obligations.thumbBranches
  simp only [← thumbTarget8_eq, ← thumbTarget11_eq, ← blHigh_eq, ← blTarget_eq]
  refine ⟨fun row hr f s => ⟨fun hc => ?_, fun hc hs => ?_⟩, fun f s => ⟨?_, fun hs => ?_, ?_⟩⟩
  · rw [condBranches_run row hr, branchIf, if_pos hc, branchCycles]
  · rw [condBranches_run row hr, branchIf, hc, if_neg Bool.false_ne_true, advance_next hs]
  · rw [exec_tB, execTB, branchCycles]
  · rw [exec_tBlHi, execTBlHi, advance_next ((hs.charges _).writeReg _ _), lrNum]
  · rw [exec_tBlLo, execTBlLo, branchCycles, blLink, lrNum]

end Sys2Proof.Machine
end

section
/-! Exceptions at a boundary and the resets (spec/60_exceptions.md R460 to R473; spec/70_reset_and_hazards.md R520, R521). -/

namespace Sys2Proof.Machine

section
variable {s : State} {e : Exc}

/-- A pending exception that is not caught is entered (R163). -/
theorem step_entered (h : haltAsked s = none) (hv : s.pipe.valid = true) (hp : pendingException s = some e)
    (hc : caught e s = false) : step s = .next (enter false e (clearHalt s)) := by
  have hs : ensureSlots (clearHalt s) = clearHalt s := ensureSlots_of_valid hv
  have hp : pendingException (clearHalt s) = some e := hp
  have hc : caught e (clearHalt s) = false := hc
  simp only [step, h, boundary, hs, hp, hc, Bool.false_eq_true, if_false]

/-- A boundary exception other than Reset returns to pc + 4 (R472). -/
theorem step_enteredAt (h : haltAsked s = none) (hv : s.pipe.valid = true) (hm : s.dbg.catchMask = 0#9)
    (hp : pendingException s = some e) (he : returnValue false e s = s.pc + 4#32) (hr : e ≠ .reset) {f : Bool}
    (hf : (s.cpsr.f || e == .fiq) = f) :
    step s = .next (entered e.mode e.vector (s.pc + 4#32) f (clearHalt s)) := by
  have hc : caught e s = false := by simp [caught, hm]
  rw [step_entered h hv hp hc, enter_eq false hr, ← he, ← hf]
  rfl

end

/-- Settles O37: the order of `pendingException`, and the entry of each kind. -/
theorem boundaryExceptions : Obligations.boundaryExceptions := by
  intro s hh hv hm hr s0 fiq irq
  have hf (h : ¬ fiq) : (s.lines.fiqLine && !s.cpsr.f) = false := by simpa [fiq] using h
  have hi (h : ¬ irq) : (s.lines.irqLine && !s.cpsr.i) = false := by simpa [irq] using h
  refine ⟨fun hd => ?_, fun hd hq => ?_, fun hd hq hj => ?_, fun hd hq hj hp => ?_⟩
  · exact step_enteredAt (e := .dataAbort) hh hv hm (by simp [pendingException, hr, hd]) rfl nofun (Bool.or_false _)
  · exact step_enteredAt (e := .fiq) hh hv hm (by simp [pendingException, hr, hd, hq.1, hq.2]) rfl nofun (Bool.or_true _)
  · exact step_enteredAt (e := .irq) hh hv hm (by simp [pendingException, hr, hd, hf hq, hj.1, hj.2]) rfl nofun
      (Bool.or_false _)
  · exact step_enteredAt (e := .prefetchAbort) hh hv hm (by simp [pendingException, hr, hd, hf hq, hi hj, hp]) rfl nofun
      (Bool.or_false _)

/-! ### Reset -/

/-- The entry of Reset over an interface that is quiet at the vector, field by field (R471, R521). -/
theorem enter_reset_quiet (inline : Bool) {s : State} (hq : QuietRefill 0#32 false s) : enter inline .reset s = { s with
    regs := writePhys s.regs (.lr 3) (Config.freeWord s.freeCount)
    spsr := s.spsr.set 3 (Config.freeWord (s.freeCount + 1))
    cpsr := { s.cpsr with m := .svc, t := false, i := true }
    pc := 0#32
    fault := { s.fault with aborted := none, reseted := true }
    lines := { s.lines with resetReq := false }
    ctr := { s.ctr with numN := s.ctr.numN + 1, numS := s.ctr.numS + 1, cost := s.ctr.cost + 2 }
    pipe := {
      decoded := { word := portLoad s.mem .word 0#32, pabort := false }
      loaded := { word := portLoad s.mem .word 4#32, pabort := false }
      valid := true
      lastFetch := { valid := true, addr := 4#32, size := 4#32 } }
    freeCount := s.freeCount + 2 } := by
  obtain ⟨h1, h2⟩ := hq
  have h := refill_quiet (s := { saveReturn inline .reset s with
    cpsr := { s.cpsr with m := .svc, t := false, i := true, f := s.cpsr.f || Exc.reset == .fiq }
    pc := 0#32 }) h1 h2
  refine h.trans ?_
  rw [show (Exc.reset == .fiq) = false from rfl, Bool.or_false]
  rfl

/-- Settles O39: Reset comes before every other pending exception, and its entry is `enter_reset_quiet`. -/
theorem warmReset : Obligations.warmReset := by
  intro s hh hv hm hr hq
  have hp : pendingException s = some .reset := by simp [pendingException, hr]
  have h := step_entered hh hv hp hm
  rw [enter_reset_quiet false (s := clearHalt s) hq] at h
  exact ⟨_, _, _, h⟩

/-- Every register of a zeroed session is zero (R58). -/
theorem readPhys_reset (p : PhysReg) : readPhys Regs.reset p = 0#32 := by
  cases p <;> simp [readPhys, Regs.reset]

/-- The status after a reset (R520). -/
theorem psrReset_word : Psr.reset.word = 0x00000093#32 := by decide

/-- A memory interface without regions is quiet at every refill. -/
theorem quietRefill_of_no_regions {s : State} (hc : s.collab.clearsAborted = true) (hr : s.collab.regions = []) (a : Word)
    (t : Bool) : QuietRefill a t s := by
  have h (sz : Size) (a : Word) : QuietAt .fetch sz a s := ⟨hc, by rw [hr]; rfl⟩
  exact ⟨h _ _, h _ _⟩

/-- Settles O40: a cold reset is the entry of Reset from the zeroed session (`enter_reset_quiet`), and `State.reset` is read
off field by field. -/
theorem coldResets : Obligations.coldResets := by
  unfold Obligations.coldResets
  intro atReset
  refine ⟨fun mem collab params hc hr => ?_, ?_, rfl, rfl⟩
  · have h : coldReset mem collab params = _ :=
      enter_reset_quiet false (s := forceReset (zeroed mem collab params)) (quietRefill_of_no_regions hc hr 0#32 false)
    refine ⟨Config.freeWord 0, Config.freeWord 1, 2, ?_⟩
    rw [h]
    refine ⟨rfl, psrReset_word, fun p => ?_, fun b => ?_, rfl, rfl, rfl, rfl, rfl, rfl, fun b => ?_, rfl, rfl, rfl, rfl,
      rfl, rfl, rfl⟩
    · split
      · rename_i hp
        rw [hp, readPhys_writePhys_same]
        rfl
      · rename_i hp
        exact (readPhys_writePhys_other _ _ hp).trans (readPhys_reset p)
    · show ((Vector.replicate 7 0#32).set 3 (Config.freeWord 1))[b.val] = _
      rw [Vector.getElem_set, Vector.getElem_replicate]
      exact if_congr (by rw [Fin.ext_iff, eq_comm]; rfl) rfl rfl
    · exact Vector.getElem_replicate ..
  · refine ⟨rfl, psrReset_word, fun p => ?_, fun b => ?_, rfl, rfl, rfl, rfl, rfl, rfl, fun b => ?_, rfl, rfl, rfl, rfl,
      rfl, rfl, rfl⟩
    · rw [ite_self]
      exact readPhys_reset p
    · rw [ite_self]
      exact Vector.getElem_replicate ..
    · exact Vector.getElem_replicate ..

end Sys2Proof.Machine
end

section
/-! The event scheduler (spec/60_exceptions.md R495 to R502): where an insertion goes, what a pass can do to the queue, and
the pass over callbacks that leave the queue alone. -/

namespace Sys2Proof.Machine

/-! ### Insertion -/

/-- A node goes after every node whose trigger time is not later (R496). -/
theorem insertEvent_append {n : EventNode} {xs : List EventNode} (h : ∀ m ∈ xs, m.trigger ≤ n.trigger)
    (l : List EventNode) : insertEvent n (xs ++ l) = xs ++ insertEvent n l := by
  induction xs with
  | nil => rfl
  | cons m xs ih =>
    rw [List.forall_mem_cons] at h
    rw [List.cons_append, insertEvent, if_pos h.1, ih h.2, List.cons_append]

/-- In an ascending queue the nodes before the place of insertion are not later and those after it are later. -/
theorem insertEvent_split (n : EventNode) {l : List EventNode} (h : l.Pairwise fun a b => a.trigger ≤ b.trigger) :
    ∃ xs ys, l = xs ++ ys ∧ insertEvent n l = xs ++ n :: ys ∧ (∀ m ∈ xs, m.trigger ≤ n.trigger) ∧
      ∀ m ∈ ys, n.trigger < m.trigger := by
  induction l with
  | nil => exact ⟨[], [], rfl, rfl, nofun, nofun⟩
  | cons m l ih =>
    obtain ⟨hm, hl⟩ := List.pairwise_cons.1 h
    by_cases ht : m.trigger ≤ n.trigger
    · obtain ⟨xs, ys, rfl, he, hx, hy⟩ := ih hl
      exact ⟨m :: xs, ys, rfl, by rw [insertEvent, if_pos ht, he]; rfl, List.forall_mem_cons.2 ⟨ht, hx⟩, hy⟩
    · refine ⟨[], m :: l, rfl, by rw [insertEvent, if_neg ht]; rfl, nofun, List.forall_mem_cons.2 ⟨by omega, ?_⟩⟩
      intro y hy
      have := hm y hy
      omega

/-- A queue in order is ascending in trigger time (R53). -/
theorem eventsOk_ascending {q : Scheduler} (h : eventsOk q = true) :
    q.events.Pairwise fun a b => a.trigger ≤ b.trigger := ((eventsOk_iff q).1 h).1.imp And.left

/-- Memory has no part in the order of the queue. -/
theorem schedule_eventsOk (d c : Nat) {s : State} (h : eventsOk s.sched = true) :
    eventsOk (schedule d c s).2.sched = true := (schedule_sound d c (s := { s with mem := [] }) ⟨rfl, h⟩).2

theorem cancel_eventsOk (k : Nat) {s : State} (h : eventsOk s.sched = true) : eventsOk (cancel k s).sched = true :=
  (cancel_sound k (s := { s with mem := [] }) ⟨rfl, h⟩).2

/-- Settles O42: the place of insertion is that of `insertEvent_split`, and a cancellation is a filter. -/
theorem scheduler : Obligations.scheduler := by
  refine ⟨fun d c s h => ?_, fun h s => ⟨_, rfl, fun n => by simp, List.filter_sublist⟩⟩
  obtain ⟨xs, ys, hl, he, hx, hy⟩ := insertEvent_split
    { handle := s.sched.nextHandle, trigger := s.ctr.now + d, callback := c } (eventsOk_ascending h)
  exact ⟨xs, ys, hl, hx, hy, rfl, by rw [← he]; rfl, schedule_eventsOk d c h⟩

/-! ### What a pass can do to the queue -/

/-- The queue after actions of callbacks: handles are handed out upwards, a node is an old one or has a new handle, and the
order is kept. -/
structure Passed (q r : Scheduler) : Prop where
  handles : q.nextHandle ≤ r.nextHandle
  nodes : ∀ n ∈ r.events, n ∈ q.events ∨ q.nextHandle ≤ n.handle
  ok : eventsOk q = true → eventsOk r = true

theorem Passed.refl (q : Scheduler) : Passed q q := ⟨Nat.le_refl _, fun _ hn => .inl hn, id⟩

theorem Passed.trans {q r t : Scheduler} (h : Passed q r) (k : Passed r t) : Passed q t where
  handles := h.handles.trans k.handles
  nodes n hn := (k.nodes n hn).elim (h.nodes n) fun hk => .inr (h.handles.trans hk)
  ok := k.ok ∘ h.ok

theorem schedule_passed (d c : Nat) (s : State) : Passed s.sched (schedule d c s).2.sched where
  handles := Nat.le_succ _
  nodes n hn := ((mem_insertEvent _ n _).1 hn).elim (fun h => .inr (by rw [h])) .inl
  ok := schedule_eventsOk d c

theorem cancel_passed (h : Nat) (s : State) : Passed s.sched (cancel h s).sched where
  handles := Nat.le_refl _
  nodes _ hn := .inl (List.mem_filter.1 hn).1
  ok := cancel_eventsOk h

theorem performCallback_passed (s : State) (x : CallbackAction) : Passed s.sched (performCallback s x).sched := by
  cases x with
  | act a =>
    cases a with
    | schedule d c => exact schedule_passed d c s
    | cancel h => exact cancel_passed h s
    | _ => exact .refl _
  | abort a => rw [performCallback, abortCall_sched]; exact .refl _
  | _ => exact .refl _

theorem performsCallback_passed (acts : List CallbackAction) (s : State) :
    Passed s.sched (acts.foldl performCallback s).sched := by
  induction acts generalizing s with
  | nil => exact .refl _
  | cons x acts ih => exact (performCallback_passed s x).trans (ih _)

/-- A handle of the snapshot is gone once it has been fired, whatever its callback does: a callback hands out new handles
only. -/
theorem fire_passed (s : State) {h : Nat} (hh : h < s.sched.nextHandle) :
    Passed s.sched (fire s h).sched ∧ ∀ n ∈ (fire s h).sched.events, n.handle ≠ h := by
  unfold fire
  split
  · rename_i n _
    have hp : Passed (cancel h s).sched (invoke n.callback (cancel h s)).sched := performsCallback_passed _ _
    refine ⟨(cancel_passed h s).trans hp, fun n hn => ?_⟩
    rcases hp.nodes n hn with hc | hk
    · simpa using (List.mem_filter.1 hc).2
    · exact (hh.trans_le hk).ne'
  · rename_i hf
    exact ⟨.refl _, fun n hn => by simpa using List.find?_eq_none.1 hf n hn⟩

/-- Firing handles already handed out leaves none of them. -/
theorem fires_passed (hs : List Nat) (s : State) (hh : ∀ h ∈ hs, h < s.sched.nextHandle) :
    Passed s.sched (hs.foldl fire s).sched ∧ ∀ h ∈ hs, ∀ n ∈ (hs.foldl fire s).sched.events, n.handle ≠ h := by
  induction hs generalizing s with
  | nil => exact ⟨.refl _, nofun⟩
  | cons h hs ih =>
    obtain ⟨hh, hr⟩ := List.forall_mem_cons.1 hh
    obtain ⟨hp, hg⟩ := fire_passed s hh
    obtain ⟨hq, hk⟩ := ih (fire s h) fun k hk => (hr k hk).trans_le hp.handles
    refine ⟨hp.trans hq, List.forall_mem_cons.2 ⟨fun n hn => ?_, hk⟩⟩
    rcases hq.nodes n hn with hf | hf
    · exact hg n hf
    · exact (hh.trans_le (hp.handles.trans hf)).ne'

theorem mem_dueHandles {s : State} {n : EventNode} (hn : n ∈ s.sched.events) (ht : n.trigger ≤ s.ctr.now) :
    n.handle ∈ dueHandles s :=
  List.mem_map_of_mem (List.mem_filter.2 ⟨hn, decide_eq_true ht⟩)

theorem eventPass_passed {s : State} (h : eventsOk s.sched = true) : Passed s.sched (eventPass s).sched ∧
    ∀ k ∈ dueHandles s, ∀ n ∈ (eventPass s).sched.events, n.handle ≠ k := by
  refine fires_passed _ s fun k hk => ?_
  obtain ⟨n, hn, rfl⟩ := List.mem_map.1 hk
  exact ((eventsOk_iff _).1 h).2 n (List.mem_filter.1 hn).1

/-! ### Callbacks that leave the queue alone -/

/-- The state with other nodes in its queue. -/
def withEvents (es : List EventNode) (s : State) : State := { s with sched := { s.sched with events := es } }

/-- An action that neither schedules nor cancels. -/
def CallbackAction.Inert (x : CallbackAction) : Prop := (∀ d c, x ≠ .act (.schedule d c)) ∧ ∀ h, x ≠ .act (.cancel h)

/-- Such an action does the same over any queue. -/
theorem performCallback_withEvents {x : CallbackAction} (hx : x.Inert) (es : List EventNode) (s : State) :
    performCallback (withEvents es s) x = withEvents es (performCallback s x) := by
  cases x with
  | act a =>
    cases a with
    | schedule d c => exact absurd rfl (hx.1 d c)
    | cancel h => exact absurd rfl (hx.2 h)
    | _ => rfl
  | abort a =>
    simp only [performCallback, abortCall, withEvents]
    split <;> rfl
  | _ => rfl

theorem performsCallback_withEvents {acts : List CallbackAction} (hx : ∀ x ∈ acts, x.Inert) (es : List EventNode)
    (s : State) : acts.foldl performCallback (withEvents es s) = withEvents es (acts.foldl performCallback s) := by
  induction acts generalizing s with
  | nil => rfl
  | cons x acts ih =>
    obtain ⟨hx, hr⟩ := List.forall_mem_cons.1 hx
    rw [List.foldl_cons, List.foldl_cons, performCallback_withEvents hx, ih hr]

/-- Firing the first node of the queue takes it out and invokes its callback (R501). -/
theorem fire_first {s : State} {n : EventNode} {rest : List EventNode} (hs : s.sched.events = n :: rest)
    (hn : ∀ m ∈ rest, n.handle ≠ m.handle) : fire s n.handle = invoke n.callback (withEvents rest s) := by
  have hf : s.sched.events.find? (fun m => m.handle == n.handle) = some n := by simp [hs]
  have hc : cancel n.handle s = withEvents rest s := by
    have hr : rest.filter (fun m => m.handle != n.handle) = rest := by
      simpa [List.filter_eq_self] using fun m hm => (hn m hm).symm
    simp [cancel, withEvents, hs, hr]
  rw [fire, hf, ← hc]

/-- Firing the first nodes of the queue one after another, over callbacks of a table that leave the queue alone. -/
theorem fires_first {cbs : List (List CallbackAction)} (hx : ∀ acts ∈ cbs, ∀ x ∈ acts, x.Inert) {ns rest : List EventNode}
    (hd : (ns ++ rest).Pairwise fun a b => a.handle ≠ b.handle) {s : State} (hc : s.collab.callbacks = cbs) :
    (ns.map EventNode.handle).foldl fire (withEvents (ns ++ rest) s) =
      ns.foldl (fun x n => ((cbs[n.callback]?).getD []).foldl performCallback x) (withEvents rest s) := by
  induction ns generalizing s with
  | nil => rfl
  | cons n ns ih =>
    obtain ⟨hn, hd⟩ := List.pairwise_cons.1 hd
    have ha : ∀ x ∈ (cbs[n.callback]?).getD [], x.Inert := by
      cases h : cbs[n.callback]? with
      | none => nofun
      | some acts => exact hx acts (List.mem_of_getElem? h)
    have hi (es : List EventNode) : ((cbs[n.callback]?).getD []).foldl performCallback (withEvents es s) =
        withEvents es (invoke n.callback s) := by
      rw [performsCallback_withEvents ha, invoke, hc]
    have hf : fire (withEvents (n :: (ns ++ rest)) s) n.handle = withEvents (ns ++ rest) (invoke n.callback s) := by
      rw [fire_first rfl hn, ← hi, ← hc]
      rfl
    rw [List.map_cons, List.foldl_cons, List.foldl_cons, hi, List.cons_append, hf]
    exact ih hd ((invoke_frame _ _).callbacks.trans hc)

/-- In an ascending queue the due nodes come first. -/
theorem due_append_later {l : List EventNode} (h : l.Pairwise fun a b => a.trigger ≤ b.trigger) (t : Nat) :
    l = (l.filter fun n => decide (n.trigger ≤ t)) ++ l.filter fun n => decide (t < n.trigger) := by
  induction l with
  | nil => rfl
  | cons m l ih =>
    obtain ⟨hm, hl⟩ := List.pairwise_cons.1 h
    by_cases ht : m.trigger ≤ t
    · rw [List.filter_cons_of_pos (by simpa using ht), List.filter_cons_of_neg (by simpa using ht), List.cons_append,
        ← ih hl]
    · have hall : ∀ n ∈ m :: l, t < n.trigger := List.forall_mem_cons.2 ⟨by omega, fun n hn => by have := hm n hn; omega⟩
      rw [List.filter_eq_nil_iff.2 fun n hn => by simpa using hall n hn,
        List.filter_eq_self.2 fun n hn => by simpa using hall n hn, List.nil_append]

/-- Settles O43: a fired handle is gone and callbacks hand out new ones only (`eventPass_passed`); the due nodes are the
first ones of the queue, and are fired in its order (`fires_first`). -/
theorem eventPasses : Obligations.eventPasses := by
  refine ⟨fun s h => ?_, fun s h hx => ?_, fun d1 d2 c1 c2 s h hd => ?_, fun s n rest d cb h hs ht hl hcb => ?_⟩
  · obtain ⟨hp, hg⟩ := eventPass_passed h
    refine ⟨fun n hn ht => hg _ (mem_dueHandles hn ht), fun n hn ht => ?_, hp.ok h⟩
    exact (hp.nodes n hn).resolve_left fun ho => hg _ (mem_dueHandles ho ht) n hn rfl
  · have ha := eventsOk_ascending h
    have hq := due_append_later ha s.ctr.now
    have hd : s.sched.events.Pairwise fun a b => a.handle ≠ b.handle := ((eventsOk_iff _).1 h).1.imp And.right
    rw [hq] at hd
    refine ⟨?_, ha.filter _⟩
    have hf := fires_first hx hd (s := s) rfl
    rw [← hq] at hf
    exact hf
  · let e1 : EventNode := { handle := s.sched.nextHandle, trigger := s.ctr.now + d1, callback := c1 }
    let e2 : EventNode := { handle := s.sched.nextHandle + 1, trigger := s.ctr.now + d2, callback := c2 }
    have h12 : e1.trigger ≤ e2.trigger := Nat.add_le_add_left hd _
    obtain ⟨xs, zs, hl, he, hx, -⟩ := insertEvent_split e1 (eventsOk_ascending h)
    have hz : zs.Pairwise fun a b => a.trigger ≤ b.trigger := (List.pairwise_append.1 (hl ▸ eventsOk_ascending h)).2.1
    obtain ⟨ys, zs, rfl, hy, -, -⟩ := insertEvent_split e2 hz
    have hb : ∀ m ∈ xs ++ [e1], m.trigger ≤ e2.trigger :=
      List.forall_mem_append.2 ⟨fun m hm => (hx m hm).trans h12, by simpa using h12⟩
    have h2 := insertEvent_append hb (ys ++ zs)
    rw [hy, List.append_assoc, List.append_assoc] at h2
    exact ⟨xs, ys, zs, (congrArg (insertEvent e2) he).trans h2⟩
  · have hn := (List.pairwise_cons.1 (hs ▸ ((eventsOk_iff _).1 h).1)).1
    have hd : dueHandles s = [n.handle] := by
      rw [dueHandles, hs, List.filter_cons_of_pos (by simpa using ht), List.filter_eq_nil_iff.2 (by simpa using hl)]
      rfl
    have he : eventPass s = invoke n.callback (withEvents rest s) := by
      rw [eventPass, hd]
      exact fire_first hs fun m hm => (hn m hm).2
    have hi : invoke n.callback (withEvents rest s) =
        performCallback (performCallback (withEvents rest s) (.act (.schedule d cb))) (.act (.setIrq true)) := by
      rw [invoke, show (withEvents rest s).collab = s.collab from rfl, hcb]
      rfl
    rw [he, hi]
    exact ⟨rfl, rfl⟩

end Sys2Proof.Machine
end

section
/-! Aborts: the fault window (spec/60_exceptions.md R465, R466; spec/10_state.md R43, R44) and the fetches of a refill that
abort (spec/40_fetch_decode_dispatch.md R165, R170). -/

namespace Sys2Proof.Machine

/-! ### The fault window -/

/-- A call that finds its own kind or a data fault marked changes nothing. -/
theorem abortCall_marked {k j : AbortKind} {s : State} (hs : s.fault.aborted = some j) (h : k = j ∨ j = .data) (a : Word) :
    abortCall k a s = s := by
  refine if_neg ?_
  rw [hs]
  rintro (hn | ⟨hp, hd⟩)
  · cases hn
  · cases hp
    subst hd
    rcases h with h | h <;> cases h

theorem abortCall_unmarked {s : State} (hs : s.fault.aborted = none) (k : AbortKind) (a : Word) :
    abortCall k a s = { s with fault := { s.fault with aborted := some k, abortAddr := a } } := if_pos (.inl hs)

theorem abortCall_data {s : State} (hs : s.fault.aborted = some .prefetch) (a : Word) :
    abortCall .data a s = { s with fault := { s.fault with aborted := some .data, abortAddr := a } } :=
  if_pos (.inr ⟨hs, rfl⟩)

theorem abortCalls_marked {k : AbortKind} {s : State} (hs : s.fault.aborted = some k) (as : List Word) :
    as.foldl (fun s x => abortCall k x s) s = s := by
  induction as with
  | nil => rfl
  | cons a as ih => rw [List.foldl_cons, abortCall_marked hs (.inl rfl), ih]

/-! ### The two fetches of a refill -/

/-- The state between the two fetches of a refill (R170). -/
def firstFetched (s : State) : State :=
  { (fetch s.pc (flush s)).2 with pipe := { (fetch s.pc (flush s)).2.pipe with decoded := (fetch s.pc (flush s)).1 } }

section
variable {s : State}

theorem refill_decoded (s : State) : (refill s).pipe.decoded = (fetch s.pc (flush s)).1 :=
  congrArg Pipe.decoded (fetch_pipe (s.pc + isz s) (firstFetched s))

theorem refill_loaded (s : State) : (refill s).pipe.loaded = (fetch (s.pc + isz s) (firstFetched s)).1 := rfl

theorem refill_fault (s : State) : (refill s).fault = (fetch (s.pc + isz s) (firstFetched s)).2.fault := rfl

/-- The first fetch is of class N and the second of class S (R48, R170). -/
theorem fetchClass_flush (s : State) : fetchClass s.pc (flush s).pipe.lastFetch = .n :=
  fetchClass_flushed _ _ (flush_stream s)

theorem fetchClass_firstFetched (s : State) : fetchClass (s.pc + isz s) (firstFetched s).pipe.lastFetch = .s := by
  have h : (firstFetched s).pipe.lastFetch = { valid := true, addr := s.pc, size := isz s } :=
    congrArg Pipe.lastFetch (fetch_pipe s.pc (flush s))
  rw [h, fetchClass_next]

theorem fetchSize_firstFetched (s : State) : fetchSize (firstFetched s) = fetchSize s := by
  have h : (firstFetched s).cpsr = s.cpsr := (fetch_frame s.pc (flush s)).cpsr
  rw [fetchSize, h, fetchSize]

/-- A first fetch that aborts marks the slot `Decoded` and leaves the collaborators as they are. -/
theorem refill_first_aborts (h : AbortsAt .n .fetch (fetchSize s) s.pc s) :
    (refill s).pipe.decoded.pabort = true ∧ (firstFetched s).collab = s.collab := by
  have h0 : AbortsAt (fetchClass s.pc (flush s).pipe.lastFetch) .fetch (fetchSize (flush s)) s.pc (flush s) := by
    rw [fetchClass_flush]; exact h
  obtain ⟨hp, hs⟩ := fetch_aborts h0
  exact ⟨by rw [refill_decoded, hp], (congrArg State.collab hs).trans (countAccess_collab ..)⟩

theorem refill_first_quiet (h : QuietAt .fetch (fetchSize s) s.pc s) :
    (refill s).pipe.decoded.pabort = false ∧ (firstFetched s).collab = s.collab := by
  have h0 : QuietAt .fetch (fetchSize (flush s)) s.pc (flush s) := h
  have hf := fetch_quiet h0
  exact ⟨by rw [refill_decoded, hf], (congrArg (fun r => r.2.collab) hf).trans (countAccess_collab ..)⟩

/-- A second fetch that aborts marks the slot `Loaded` and is the abort the core holds (R44). -/
theorem refill_second_aborts (hc : (firstFetched s).collab = s.collab)
    (h : AbortsAt .s .fetch (fetchSize s) (s.pc + isz s) s) : (refill s).pipe.loaded.pabort = true ∧
      (refill s).fault.aborted = some .prefetch ∧ (refill s).fault.abortAddr = s.pc + isz s := by
  have h1 : AbortsAt (fetchClass (s.pc + isz s) (firstFetched s).pipe.lastFetch) .fetch (fetchSize (firstFetched s))
      (s.pc + isz s) (firstFetched s) := by
    rw [fetchClass_firstFetched, fetchSize_firstFetched]; exact h.congr hc
  obtain ⟨hp, hs⟩ := fetch_aborts h1
  rw [refill_fault, hs]
  exact ⟨hp, rfl, rfl⟩

theorem refill_second_quiet (hc : (firstFetched s).collab = s.collab)
    (h : QuietAt .fetch (fetchSize s) (s.pc + isz s) s) : (refill s).pipe.loaded.pabort = false := by
  have h1 : QuietAt .fetch (fetchSize (firstFetched s)) (s.pc + isz s) (firstFetched s) := by
    rw [fetchSize_firstFetched]; exact h.congr hc
  rw [refill_loaded, fetch_quiet h1]

end

/-- Settles O44: the first call of a window marks it, and each fetch of a refill that aborts marks its own slot. -/
theorem abortCalls : Obligations.abortCalls := by
  refine ⟨fun k a as s hs => ?_, fun a s hs => abortCall_data hs a, fun k a s hs => abortCall_marked hs (.inr rfl) a,
    fun a s => ⟨fetch_quiet, fetch_aborts⟩, fun s => ⟨fun h0 h1 => ?_, fun h0 h1 => ?_, fun h0 h1 => ?_⟩⟩
  · rw [abortCall_unmarked hs]
    exact abortCalls_marked rfl as
  · obtain ⟨hd, hc⟩ := refill_first_aborts h0
    obtain ⟨hl, hf, ha⟩ := refill_second_aborts hc h1
    have fr := refill_frame s
    exact ⟨hd, hl, fr.regs, fr.cpsr, fr.pc, hf, ha⟩
  · obtain ⟨hd, hc⟩ := refill_first_aborts h0
    exact ⟨hd, refill_second_quiet hc h1⟩
  · obtain ⟨hd, hc⟩ := refill_first_quiet h0
    exact ⟨hd, refill_second_quiet hc h1⟩

end Sys2Proof.Machine
end

section
/-! USER mode (spec/60_exceptions.md R480, R481; spec/10_state.md R37): the status word of USER mode through every end of an
instruction and through the step around it. -/

namespace Sys2Proof.Machine

/-- The exception `e` was taken from the status `p`: what the core holds just after its entry (R470). -/
structure Taken (p : Psr) (e : Exc) (t : State) : Prop where
  vector : AtVector e t
  f : t.cpsr.f = (p.f || e == .fiq)
  saved : e ≠ .reset → t.spsr[e.mode.bank] = p.word
  flags : SameFlags t.cpsr p

theorem enter_taken (inline : Bool) (x : Exc) (s : State) : Taken s.cpsr x (enter inline x s) where
  vector := enter_atVector inline x s
  f := by rw [enter_cpsr]
  saved hx := by
    rw [enter_eq inline hx, entered, (branchTo_frame _ _).spsr]
    exact Vector.getElem_set_self ..
  flags := by rw [enter_cpsr]; exact ⟨rfl, rfl, rfl, rfl⟩

/-- From a USER mode status `p` the core stayed in USER mode with its masks, or took an exception. -/
def FromUser (p : Psr) (t : State) : Prop :=
  (t.cpsr.m = .user ∧ t.cpsr.i = p.i ∧ t.cpsr.f = p.f) ∨ ∃ e, Taken p e t

theorem FromUser.congr {p : Psr} {t u : State} (h : FromUser p u) (hc : t.cpsr = u.cpsr) (hs : t.spsr = u.spsr)
    (hp : t.pc = u.pc) : FromUser p t := by
  rcases h with h | ⟨e, hv, hf, hsaved, hflags⟩
  · exact .inl (hc ▸ h)
  · exact .inr ⟨e, by unfold AtVector; rw [hc, hp]; exact hv, hc ▸ hf, hs ▸ hsaved, hc ▸ hflags⟩

/-- An MSR in USER mode writes flags alone (R37). -/
theorem msrFlags_masks (mask : BitVec 4) (x : Word) (p : Psr) :
    (msrFlags mask x p).i = p.i ∧ (msrFlags mask x p).f = p.f := by
  unfold msrFlags
  split <;> exact ⟨rfl, rfl⟩

/-- No end of an instruction leaves USER mode but the entry of an exception: it has no SPSR to restore, and its MSR writes
flags alone. -/
theorem Ends.fromUser {fl : Bool} {us : List RegNum} {s t : State} (e : Ends fl us s t) (hm : s.cpsr.m = .user) :
    FromUser s.cpsr t := by
  have stays {fl : Bool} {u : State} (w : Work fl us s u) (hu : t.cpsr.m = u.cpsr.m ∧ t.cpsr.i = u.cpsr.i ∧
      t.cpsr.f = u.cpsr.f) : FromUser s.cpsr t := by
    obtain ⟨hmu, hiu, hfu⟩ := hu
    exact .inl ⟨by rw [hmu, w.mode, hm], by rw [hiu, w.status], by rw [hfu, w.status]⟩
  cases e with
  | next u w e => exact stays w (by subst e; exact ⟨rfl, rfl, rfl⟩)
  | branch v u w e => exact stays w (by subst e; rw [branchTo_cpsr]; exact ⟨rfl, rfl, rfl⟩)
  | exchange v b u w e => exact stays w (by subst e; rw [branchTo_cpsr]; exact ⟨rfl, rfl, rfl⟩)
  | restore v p u w _ hs _ e => rw [w.mode, hm] at hs; cases hs
  | status mask x p u w _ hp _ e =>
    rw [psrOfWord_msrWord_flags (.inr hm)] at hp
    cases hp
    have hc : t.cpsr = msrFlags mask x s.cpsr := by
      subst e
      split
      · rfl
      · rw [branchTo_cpsr]
    obtain ⟨hi, hf⟩ := msrFlags_masks mask x s.cpsr
    exact .inl ⟨by rw [hc, msrFlags_m, hm], by rw [hc, hi], by rw [hc, hf]⟩
  | entered x u w e =>
    subst e
    exact .inr ⟨x, w.flags rfl ▸ enter_taken true x u⟩
  | caught x u w e => exact stays w (by subst e; exact ⟨rfl, rfl, rfl⟩)

/-- Settles O54: no end of an instruction leaves USER mode by itself (`Ends.fromUser`), and what stands around the
instruction leaves the status, its saved copies and the pc. -/
theorem userModeLeftByExceptionOnly : Obligations.userModeLeftByExceptionOnly := by
  intro s t hm h
  have hs1 := ensureSlots_around s
  have key : FromUser s.cpsr t := by
    rcases step_cases h with ⟨r, -, rfl⟩ | ⟨-, hb⟩
    · exact .inl ⟨hm, rfl, rfl⟩
    · rcases boundary_cases hb with ⟨x, -, -, rfl⟩ | ⟨x, -, -, rfl⟩ | ⟨-, u, hu, rfl⟩
      · exact .inl ⟨hm, rfl, rfl⟩
      · exact .inr ⟨x, hs1.cpsr ▸ enter_taken false x _⟩
      · have hc := (hs1.trans (prepare_around _)).cpsr
        have hf := eventPass_frame (advanceClock u)
        have hu : FromUser s.cpsr u := by
          rw [← hc] at hm ⊢
          rcases execDecoded_ends hu with ⟨i, -, e⟩ | e <;> exact e.fromUser hm
        exact hu.congr hf.cpsr hf.spsr hf.pc
  rcases key with h | ⟨e, ⟨hmode, hi, ht, hpc⟩, hf, hsaved, hn, hz, hc, hv⟩
  · exact .inl h
  · exact .inr ⟨e, hmode, hi, ht, hf, hpc, hsaved, hn, hz, hc, hv⟩

end Sys2Proof.Machine
end
